-- ==== Sys2Proof/Word.lean ====
section
/-! DEFINITION. The three fixed word sizes: the operand field `A` of an event word is 32 bits, an RSSI byte and a
message byte 8 bits (30_encoding.md R74, R81, 00_scope.md R13), an event word 48 bits (30_encoding.md R81).
The timestamps, intervals and counters the block holds have the widths the configuration gives (00_scope.md R11, 32
bits by default): they are numbers below a power of two, and each operation narrows its result (log 3). -/

namespace Sys2Proof

/-- A timestamp or a width as an event word carries it, and the clock's `u32` (30_encoding.md R82, 20_memory.md R61). -/
abbrev Word := BitVec 32

/-- A byte of the message buffer, or an RSSI byte (00_scope.md R13, 30_encoding.md R74). -/
abbrev Byte := BitVec 8

/-- One event word: `op` in bits 47 to 40, `A` in bits 39 to 8, `B` in bits 7 to 0 (30_encoding.md R81). -/
abbrev EventWord := BitVec 48

end Sys2Proof
end

