-- ==== Sys2Proof/Config.lean ====
section
/-! DEFINITION. The configuration record of 00_scope.md R11, one field per row of its table with the default the row
shows, and the one free value of the model (log 8).
No operation writes a parameter (R11). Which settings are legal is `Config.legal` in WellFormed.lean (R12). -/

namespace Sys2Proof

/-- The block's parameters, in the order of the table of R11. A row the spec leaves OPEN is an `Option` that is `none`
in the default record (log 4); it is passed on to the collaborator it is meant for and no operation computes with
it. -/
structure Config where
  /-- `TS_BITS`, the width of a timestamp and of an interval (log 3). -/
  tsBits : Nat := 32
  /-- `EDGE_CNT_BITS`, the width of the edge counter (log 3). -/
  edgeCntBits : Nat := 32
  /-- `RSSI_THRESHOLD`, the trigger threshold, an RSSI byte. -/
  rssiThreshold : Nat := 180
  /-- `POLL_PERIOD_US`, informative only (R11): no operation reads it. -/
  pollPeriodUs : Nat := 100
  /-- `CAPTURE_POLLS`, the number of poll intervals a window stays open. -/
  capturePolls : Nat := 1600
  /-- `POLL_CNT_BITS`, the width of the poll counter (log 3). -/
  pollCntBits : Nat := 32
  /-- `CHIP_US`, the nominal chip period; the bands and the limit are parameters of their own, no operation reads it. -/
  chipUs : Nat := 488
  /-- `SHORT_MIN_US`, the lower end of the short band, inclusive. -/
  shortMinUs : Nat := 390
  /-- `SHORT_MAX_US`, the upper end of the short band, inclusive. -/
  shortMaxUs : Nat := 600
  /-- `LONG_MIN_US`, the lower end of the long band, inclusive. -/
  longMinUs : Nat := 850
  /-- `LONG_MAX_US`, the upper end of the long band, inclusive. -/
  longMaxUs : Nat := 1200
  /-- `IDLE_LIMIT_US`, the idle period beyond which the line is not active. -/
  idleLimitUs : Nat := 1464
  /-- `MSG_MAX`, the largest message length in bytes. -/
  msgMax : Nat := 255
  /-- `MIN_LEN`, the least buffer length the validator accepts (log 28). -/
  minLen : Nat := 8
  /-- `MIN_LEN_1A2D`, the least length for type `0x1A2D` (log 28). -/
  minLen1A2D : Nat := 9
  /-- `HEARTBEAT_PERIOD`, OPEN; informative, HBEAT is an event (93_implementation_defined.md U24). -/
  heartbeatPeriod : Option Nat := none
  /-- `DEMOD_PIN`, OPEN; passed to `setPinMode` and `attachEdgeInterrupt`. -/
  demodPin : Option Nat := none
  /-- `TRIG_PIN`, OPEN; passed to `setPinMode` and `writePin`. -/
  trigPin : Option Nat := none
  /-- `ACTIVE_PIN`, OPEN; the optional pin `active` may be brought out to, which no call names (60_exceptions.md R219). -/
  activePin : Option Nat := none
  /-- `RADIO_HZ`, OPEN; passed to `setFrequency` at boot. -/
  radioHz : Option Nat := none
deriving DecidableEq, Repr

/-- The record with every row at its default (00_scope.md R11). -/
def Config.default : Config := {}

/-- FREE VALUE (log 8). What the external Pulse-Train Decoder answers at its `n`-th unscripted `feed`: `none` when
`feed` returns false, `some bytes` when it returns true and the `getData` after it returns `bytes`. The decoder is an
oracle (00_scope.md R8, 10_state.md R41, 93_implementation_defined.md U14): nothing is known of this function. -/
opaque Config.freeDecoder : Nat → Option (List Byte)

end Sys2Proof
end

