-- ==== Sys2Proof/Syntax.lean ====
section
/-! DEFINITION. The ten operations of 30_encoding.md R80, one constructor per row of spec/opcode_table.json, and the
lines of a listing (R87, R88). An operand has the width of its field of the event word (R81), so an instruction cannot
hold an operand its word cannot. -/

namespace Sys2Proof

/-- An operation of the block with its operands (30_encoding.md R80, R82, R83). -/
inductive Instr where
  /-- Do nothing (44_pipeline.md R198). -/
  | nop
  /-- The handler's reaction to one edge of the input (40_producer.md R101). -/
  | edge (nowUs : Word)
  /-- The main loop's read-and-clear of the slot (40_producer.md R103). -/
  | drain
  /-- One tick of the polling cadence (41_window.md R122). -/
  | poll (nowUs : Word) (rssi : Byte)
  /-- The heartbeat (41_window.md R129). -/
  | hbeat (nowUs : Word)
  /-- Classify one width (42_classifier.md R141). -/
  | classify (widthUs : Word)
  /-- Detect an idle line (42_classifier.md R146). -/
  | idlechk (nowUs : Word)
  /-- Validate the buffer and extract a reading (43_validator.md R156). -/
  | validate
  /-- One pass of the main loop's pulse path (44_pipeline.md R191). -/
  | step (nowUs : Word)
  /-- Put the block in its initial state (70_reset_and_hazards.md R235). -/
  | reset
deriving DecidableEq, Repr

/-- Who executes an operation (00_scope.md R10, 30_encoding.md R80). -/
inductive Agent where
  /-- The interrupt handler. -/
  | isr
  /-- The cooperative main loop. -/
  | main
  /-- Power-on, or a reset by the host. -/
  | host
deriving DecidableEq, Repr

/-- The agent column of the table of 30_encoding.md R80. -/
def Instr.agent : Instr → Agent
  | .nop => .main
  | .edge _ => .isr
  | .drain => .main
  | .poll _ _ => .main
  | .hbeat _ => .main
  | .classify _ => .main
  | .idlechk _ => .main
  | .validate => .main
  | .step _ => .main
  | .reset => .host

/-- The names a line of a listing may begin with: the ten mnemonics of 30_encoding.md R80, and the two
pseudo-operations `TAKE` and `LOOP` of R88. -/
inductive LineName where
  | nop | edge | drain | poll | hbeat | classify | idlechk | validate | step | reset
  /-- Another spelling of `DRAIN` (R88). -/
  | take
  /-- `POLL now, rssi` then `STEP now` (R88, 44_pipeline.md R196). -/
  | loop
deriving DecidableEq, Repr

/-- The name as a listing writes it, in upper case (30_encoding.md R87). -/
def LineName.text : LineName → String
  | .nop => "NOP"
  | .edge => "EDGE"
  | .drain => "DRAIN"
  | .poll => "POLL"
  | .hbeat => "HBEAT"
  | .classify => "CLASSIFY"
  | .idlechk => "IDLECHK"
  | .validate => "VALIDATE"
  | .step => "STEP"
  | .reset => "RESET"
  | .take => "TAKE"
  | .loop => "LOOP"

/-- One line of a listing after its characters have been read: the name and its operands as numbers, decimal or
hexadecimal alike (30_encoding.md R87, log 25). -/
structure Line where
  name : LineName
  operands : List Nat
deriving DecidableEq, Repr

end Sys2Proof
end

