-- ==== Sys2Proof/WellFormed.lean ====
section
/-! DEFINITION. The checks a configuration and a line of a listing must pass.
An instruction needs no check of its own: its operands have the widths of the event word's fields, so every term of
`Instr` is well formed (`Instr.wellFormed`, used where a statement says "for every well-formed instruction"). -/

namespace Sys2Proof

/-! ## Configurations (00_scope.md R12) -/

/-- The two bands are in order and disjoint (R12). -/
def Config.bandsOk (c : Config) : Bool :=
  c.shortMinUs ≤ c.shortMaxUs && c.shortMaxUs < c.longMinUs && c.longMinUs ≤ c.longMaxUs

/-- `1 ≤ CAPTURE_POLLS < 2^POLL_CNT_BITS` (R12). -/
def Config.pollsOk (c : Config) : Bool :=
  1 ≤ c.capturePolls && c.capturePolls < 2 ^ c.pollCntBits

/-- `0 ≤ RSSI_THRESHOLD ≤ 255` (R12). -/
def Config.thresholdOk (c : Config) : Bool := c.rssiThreshold ≤ 255

/-- `IDLE_LIMIT_US < 2^TS_BITS` (R12). -/
def Config.idleOk (c : Config) : Bool := c.idleLimitUs < 2 ^ c.tsBits

/-- A configuration that describes a block: the four conditions of 00_scope.md R12 and no other. The model refuses
every other one (R12, 93_implementation_defined.md U22). -/
def Config.legal (c : Config) : Bool :=
  c.bandsOk && c.pollsOk && c.thresholdOk && c.idleOk

/-! ## Instructions and listing lines -/

/-- Every instruction is well formed: the widths of its operands are those of its event word (30_encoding.md R81). -/
def Instr.wellFormed : Instr → Bool
  | .nop => true
  | .edge _ => true
  | .drain => true
  | .poll _ _ => true
  | .hbeat _ => true
  | .classify _ => true
  | .idlechk _ => true
  | .validate => true
  | .step _ => true
  | .reset => true

/-- The operands a line's name takes, as bounds below which each must lie (30_encoding.md R82, R87): 2^32 for a
timestamp or a width, 256 for an RSSI byte. -/
def LineName.bounds : LineName → List Nat
  | .nop => []
  | .edge => [2 ^ 32]
  | .drain => []
  | .poll => [2 ^ 32, 256]
  | .hbeat => [2 ^ 32]
  | .classify => [2 ^ 32]
  | .idlechk => [2 ^ 32]
  | .validate => []
  | .step => [2 ^ 32]
  | .reset => []
  | .take => []
  | .loop => [2 ^ 32, 256]

/-- The line has as many operands as its name takes. -/
def Line.arityOk (l : Line) : Bool := l.operands.length == l.name.bounds.length

/-- Each operand fits its field. -/
def Line.rangeOk (l : Line) : Bool :=
  (l.operands.zip l.name.bounds).all fun p => p.1 < p.2

/-- A line that stands for operations of the block (30_encoding.md R87, R88). -/
def Line.wellFormed (l : Line) : Bool := l.arityOk && l.rangeOk

end Sys2Proof
end

