-- ==== Sys2Proof/Decode.lean ====
section
/-! DEFINITION. The event word (30_encoding.md R81 to R84): its fields, the opcode map of R83, the decoder, total on
every word and rejecting reserved words by name, and after it the encoder written from the same map. -/

namespace Sys2Proof

/-- Why a word is reserved (30_encoding.md R84). -/
inductive DecodeError where
  /-- Its `op` is `0x09` to `0xFE`. -/
  | reservedOpcode
  /-- Its `op` is known and a field the operation does not use is not 0. -/
  | nonzeroUnusedField
deriving DecidableEq, Repr

/-- Bits 47 to 40 of an event word (30_encoding.md R81). -/
def EventWord.op (w : EventWord) : BitVec 8 := w.extractLsb' 40 8

/-- Bits 39 to 8 of an event word (30_encoding.md R81). -/
def EventWord.fieldA (w : EventWord) : Word := w.extractLsb' 8 32

/-- Bits 7 to 0 of an event word (30_encoding.md R81). -/
def EventWord.fieldB (w : EventWord) : Byte := w.extractLsb' 0 8

/-- An event word from its three fields (30_encoding.md R81). -/
def EventWord.pack (op : BitVec 8) (a : Word) (b : Byte) : EventWord := op ++ a ++ b

/-! ## The opcode map -/

/-- One row of the opcode map (30_encoding.md R83): a word `w` selects it iff `w & mask = match`. -/
structure OpcodeRow where
  name : LineName
  matchBits : EventWord
  mask : EventWord
deriving DecidableEq, Repr

/-- The opcode map of 30_encoding.md R83, row for row. -/
def opcodeMap : List OpcodeRow :=
  [ ⟨.nop, 0x000000000000#48, 0xFFFFFFFFFFFF#48⟩,
    ⟨.edge, 0x010000000000#48, 0xFF00000000FF#48⟩,
    ⟨.drain, 0x020000000000#48, 0xFFFFFFFFFFFF#48⟩,
    ⟨.poll, 0x030000000000#48, 0xFF0000000000#48⟩,
    ⟨.hbeat, 0x040000000000#48, 0xFF00000000FF#48⟩,
    ⟨.classify, 0x050000000000#48, 0xFF00000000FF#48⟩,
    ⟨.idlechk, 0x060000000000#48, 0xFF00000000FF#48⟩,
    ⟨.validate, 0x070000000000#48, 0xFFFFFFFFFFFF#48⟩,
    ⟨.step, 0x080000000000#48, 0xFF00000000FF#48⟩,
    ⟨.reset, 0xFF0000000000#48, 0xFFFFFFFFFFFF#48⟩ ]

/-- The word selects the row (30_encoding.md R83). -/
def OpcodeRow.selects (r : OpcodeRow) (w : EventWord) : Bool := w &&& r.mask == r.matchBits

/-- The name of an instruction's row. -/
def Instr.name : Instr → LineName
  | .nop => .nop
  | .edge _ => .edge
  | .drain => .drain
  | .poll _ _ => .poll
  | .hbeat _ => .hbeat
  | .classify _ => .classify
  | .idlechk _ => .idlechk
  | .validate => .validate
  | .step _ => .step
  | .reset => .reset

/-! ## Decoding -/

/-- An operation that uses neither field: both must be 0 (30_encoding.md R82). -/
def decodeBare (i : Instr) (w : EventWord) : Except DecodeError Instr :=
  if w.fieldA = 0 ∧ w.fieldB = 0 then .ok i else .error .nonzeroUnusedField

/-- An operation that uses `A` only: `B` must be 0 (30_encoding.md R82). -/
def decodeWithA (mk : Word → Instr) (w : EventWord) : Except DecodeError Instr :=
  if w.fieldB = 0 then .ok (mk w.fieldA) else .error .nonzeroUnusedField

/-- The instruction an event word stands for, or why the word is reserved (30_encoding.md R82, R83, R84). An operand is
taken as it stands: no sign extension, no scaling (R82). -/
def decode (w : EventWord) : Except DecodeError Instr :=
  if w.op = 0x00#8 then decodeBare .nop w
  else if w.op = 0x01#8 then decodeWithA .edge w
  else if w.op = 0x02#8 then decodeBare .drain w
  else if w.op = 0x03#8 then .ok (.poll w.fieldA w.fieldB)
  else if w.op = 0x04#8 then decodeWithA .hbeat w
  else if w.op = 0x05#8 then decodeWithA .classify w
  else if w.op = 0x06#8 then decodeWithA .idlechk w
  else if w.op = 0x07#8 then decodeBare .validate w
  else if w.op = 0x08#8 then decodeWithA .step w
  else if w.op = 0xFF#8 then decodeBare .reset w
  else .error .reservedOpcode

/-- The instruction the decoder reads from an opcode-table word of `nbits` bits, numbered as spec/opcode_table.json
numbers it: bit 0 is the least significant bit of the one 48-bit event word, and bits from `nbits` up are 0 (log 23). -/
def decodeTableWord (nbits w : Nat) : Option Instr :=
  if w % 2 ^ nbits < 2 ^ 48 then
    match decode (BitVec.ofNat 48 (w % 2 ^ nbits)) with
    | .ok i => some i
    | .error _ => none
  else none

/-! ## Encoding -/

/-- The event word of an instruction (30_encoding.md R82, R83). -/
def encode : Instr → EventWord
  | .nop => EventWord.pack 0x00#8 0 0
  | .edge now => EventWord.pack 0x01#8 now 0
  | .drain => EventWord.pack 0x02#8 0 0
  | .poll now rssi => EventWord.pack 0x03#8 now rssi
  | .hbeat now => EventWord.pack 0x04#8 now 0
  | .classify width => EventWord.pack 0x05#8 width 0
  | .idlechk now => EventWord.pack 0x06#8 now 0
  | .validate => EventWord.pack 0x07#8 0 0
  | .step now => EventWord.pack 0x08#8 now 0
  | .reset => EventWord.pack 0xFF#8 0 0

end Sys2Proof
end

