-- ==== Sys2Proof/Machine/State.lean ====
section
/-! DEFINITION. The state of the block (10_state.md R20), the records it passes around, the reasons a step can stop,
and the state after reset (R45). Plain data throughout. -/

namespace Sys2Proof.Machine

/-! ## Records and enumerations of the data model -/

/-- `CaptureWindowState`. The document's third name, Armed, has no reachable state (10_state.md R26); its code and the
reserved code `0b11` are refused by `WinState.ofCode` (30_encoding.md R75, R79; log 12). -/
inductive WinState where
  /-- No window open. -/
  | idle
  /-- A window open, the trigger line held. -/
  | capturing
deriving DecidableEq, Repr

/-- `PulseSample` (10_state.md R21, 30_encoding.md R77): two numbers of `TS_BITS` bits (log 3). -/
structure PulseSample where
  widthUs : Nat
  capturedAt : Nat
deriving DecidableEq, Repr

/-- The tag of a `ClassifiedPulse` (42_classifier.md R140, 30_encoding.md R76). -/
inductive Tag where
  | invalid
  | short
  | long
deriving DecidableEq, Repr

/-- `ClassifiedPulse` (10_state.md R38, 30_encoding.md R76). -/
structure ClassifiedPulse where
  tag : Tag
  widthUs : Nat
deriving DecidableEq, Repr

/-- `DecodedReading`, with the widths of 30_encoding.md R78; `temperatureTenths` is 16 bits two's complement. -/
structure DecodedReading where
  sensorType : BitVec 16
  channel : BitVec 4
  rollingCode : BitVec 8
  temperatureTenths : BitVec 16
  humidityPercent : BitVec 8
  batteryOk : Bool
deriving DecidableEq, Repr

/-- The model's labels for a buffer that gives no reading (43_validator.md R172, 60_exceptions.md R206); they are no
output of the block. -/
inductive Reject where
  | tooShort
  | unknownType
  | checksumMismatch
deriving DecidableEq, Repr

/-- What VALIDATE finds: a reading, or none with the label of the check that failed (43_validator.md R156, R172). -/
inductive Verdict where
  | accepted (r : DecodedReading)
  | rejected (why : Reject)
deriving DecidableEq, Repr

/-- The `Option DecodedReading` the block returns (43_validator.md R155): every failure is the same `None`. -/
def Verdict.reading? : Verdict → Option DecodedReading
  | .accepted r => some r
  | .rejected _ => none

/-- An output event (30_encoding.md R86). The elapsed time is an interval, a number of `TS_BITS` bits. -/
inductive Event where
  | reading (r : DecodedReading)
  | windowClosed (elapsedUs : Nat) (trigRssi : Byte)
  | heartbeat (nowUs : Word) (triggered : Bool)
deriving DecidableEq, Repr

/-! ## The model's own fields -/

/-- The pins the block's software names, each with the number the configuration gives it, `none` while that is OPEN
(00_scope.md R11, 60_exceptions.md R219). -/
inductive Pin where
  /-- `DEMOD_PIN`, the input. -/
  | demod (number : Option Nat)
  /-- `TRIG_PIN`, the trigger line. -/
  | trig (number : Option Nat)
deriving DecidableEq, Repr

/-- The mode of a pin (60_exceptions.md R219: one input pin, one output pin; the names are the model's, log 29). -/
inductive PinMode where
  | input
  | output
deriving DecidableEq, Repr

/-- The handler of the edge interrupt. The block has one (00_scope.md R10), the producer's, whose reaction is EDGE
(`Handler.operation` of Machine/HostActions.lean). -/
inductive Handler where
  | producer
deriving DecidableEq, Repr

/-- A call on a collaborator with its operands (00_scope.md R8). `nowMicros` is not listed: its answer is the event's
operand (30_encoding.md R82, log 10). The last four are made at boot only (70_reset_and_hazards.md R240). -/
inductive Call where
  | readRssi
  | writePin (pin : Pin) (level : Bool)
  | enterCriticalSection
  | exitCriticalSection
  | feed (widthUs : Nat)
  | getData
  | decoderReset
  | setReceiveMode
  /-- `setFrequency(hz)`: the operand is `RADIO_HZ`, `none` while that is OPEN. -/
  | setFrequency (hz : Option Nat)
  | setPinMode (pin : Pin) (mode : PinMode)
  | attachEdgeInterrupt (pin : Pin) (handler : Handler)
deriving DecidableEq, Repr

/-- The external decoder as an oracle (00_scope.md R8, log 8). An answer is `none` when `feed` returns false and
`some bytes` when it returns true and the `getData` after it returns `bytes` and their number. -/
inductive Decoder where
  /-- The answers still to come; when they are used up `feed` returns false (30_encoding.md R88). -/
  | scripted (answers : List (Option (List Byte)))
  /-- Free answers, of which `draws` have been drawn (`Config.freeDecoder`). -/
  | free (draws : Nat)
deriving DecidableEq, Repr

/-- What the last operation that returns something returned (10_state.md R38, log 11). -/
inductive Result where
  /-- Nothing has been returned yet. -/
  | none
  /-- DRAIN's `Option PulseSample` (40_producer.md R103). -/
  | drained (sample : Option PulseSample)
  /-- CLASSIFY's `ClassifiedPulse` (42_classifier.md R141). -/
  | classified (pulse : ClassifiedPulse)
  /-- IDLECHK's boolean (42_classifier.md R146). -/
  | idleChecked (idle : Bool)
  /-- VALIDATE's result with its label (43_validator.md R156, R172). -/
  | validated (verdict : Verdict)
deriving DecidableEq, Repr

/-! ## The state record -/

/-- The message buffer's bytes as (index, byte) pairs, indices strictly rising, no byte 0: an unlisted index reads as
0, the reset contents (10_state.md R45, log 13). The form is `Memory.wf` of Machine/Ops.lean. -/
abbrev Memory := List Host.Cell

/-- The state of the block: first the record of 10_state.md R20, then the model's own fields (log 2, 5, 8, 10, 11).
A register whose width is a parameter is a number; `State.fits` of Machine/Fetch.lean says that each holds no more than
its width, and every step keeps that (log 3). -/
structure State where
  /-- `slot_width`, the width in the shared cell; 0 means the slot is empty (10_state.md R21, R23). -/
  slotWidth : Nat
  /-- `slot_time`, the timestamp in the shared cell (10_state.md R21). -/
  slotTime : Nat
  /-- `edge_count`, the free-running edge counter (10_state.md R25). -/
  edgeCount : Nat
  /-- `last_edge_us`, the timestamp of the most recent edge (10_state.md R24). -/
  lastEdgeUs : Nat
  /-- `win_state` (10_state.md R26). -/
  winState : WinState
  /-- `poll_count`, the polls run since the window opened (10_state.md R27). -/
  pollCount : Nat
  /-- `trig_rssi`, the triggering RSSI byte (10_state.md R28). -/
  trigRssi : Byte
  /-- `open_us`, the clock value of the opening poll (10_state.md R28). -/
  openUs : Nat
  /-- `trig_out`, the level of the trigger line (10_state.md R29). -/
  trigOut : Bool
  /-- `active`, the liveness output (10_state.md R32). -/
  active : Bool
  /-- `MSG`, the message buffer's bytes (10_state.md R35). -/
  msg : Memory
  /-- `MSG_LEN`, the message's length (10_state.md R35). -/
  msgLen : Nat
  /-- `events`, the output, oldest first (10_state.md R37). -/
  events : List Event
  /-- MODEL'S OWN: the configuration (00_scope.md R11); no operation writes it. -/
  cfg : Config
  /-- MODEL'S OWN: the event words not yet run, first one first (10_state.md R30). -/
  inbox : List EventWord
  /-- MODEL'S OWN: the decoder oracle. -/
  decoder : Decoder
  /-- MODEL'S OWN: the calls made on the collaborators since RESET, oldest first. -/
  calls : List Call
  /-- MODEL'S OWN: what the last DRAIN, CLASSIFY, IDLECHK or VALIDATE returned. -/
  result : Result
deriving DecidableEq, Repr

/-! ## How a step can stop -/

/-- The block raises no exception (60_exceptions.md R205) and nothing in it is treated as a fault or a stuck state
(93_implementation_defined.md, before part 1): there is no fault (log 19). Raised by nobody; safe. -/
inductive Fault where
deriving DecidableEq, Repr

/-- Why the model makes no step. Each is a refusal the spec asks of a model. -/
inductive Refusal where
  /-- Raised by an arm of `exec` whose instruction has no meaning yet; safe. -/
  | notModelled (mnemonic : String)
  /-- Raised by `step` on a reserved event word (30_encoding.md R84, 93_implementation_defined.md U20); safe. -/
  | reservedWord (why : DecodeError)
  /-- Raised by `step` and by boot on a configuration outside 00_scope.md R12, as that rule asks
  (93_implementation_defined.md U22); safe. -/
  | illegalConfig
  /-- Raised by `step` on a state outside 70_reset_and_hazards.md R236, unless the operation is RESET
  (30_encoding.md R79, 93_implementation_defined.md U21); safe. -/
  | illegalStart
  /-- Raised by STEP, and by the directive `.msg`, on a message longer than `MSG_MAX` (20_memory.md R50,
  93_implementation_defined.md U16); safe. -/
  | messageTooLong (length : Nat)
  /-- Raised by a listing, not by `step`, on a line that stands for no operation (30_encoding.md R87); safe. -/
  | illFormedLine
  /-- Raised by a listing, not by `step`, on a `.param` after the first RESET (30_encoding.md R88); safe. -/
  | lateParameter
deriving DecidableEq, Repr

/-! ## Reset -/

/-- The machine right after RESET: the values of 10_state.md R45, the default configuration, no event waiting, a free
decoder, and the calls RESET itself makes (70_reset_and_hazards.md R235). -/
def State.reset : State where
  slotWidth := 0
  slotTime := 0
  edgeCount := 0
  lastEdgeUs := 0
  winState := .idle
  pollCount := 0
  trigRssi := 0
  openUs := 0
  trigOut := false
  active := false
  msg := []
  msgLen := 0
  events := []
  cfg := Config.default
  inbox := []
  decoder := .free 0
  calls := [.enterCriticalSection, .exitCriticalSection, .writePin (.trig none) false]
  result := .none

end Sys2Proof.Machine
end

