-- ==== Sys2Proof/Machine/Flags.lean ====
section
/-! DEFINITION. The four status bits of the block (10_state.md R31). No arithmetic operation sets a carry, overflow,
zero or sign flag, and none of the four is a condition code (R31). -/

namespace Sys2Proof.Machine

/-- Status bit (i): the slot is empty (10_state.md R23, R31). -/
def State.slotEmpty (s : State) : Bool := s.slotWidth == 0

/-- Status bit (ii): a window is open (10_state.md R31). -/
def State.capturing (s : State) : Bool := s.winState == .capturing

/-- `active <- (tag != Invalid)` (42_classifier.md R141): what CLASSIFY does to status bit (iv). -/
def State.noteTag (s : State) (tag : Tag) : State := { s with active := tag != .invalid }

/-- What IDLECHK does to status bit (iv): cleared when the line is idle, otherwise unchanged, never set
(42_classifier.md R146). -/
def State.noteIdle (s : State) (idle : Bool) : State :=
  { s with active := if idle then false else s.active }

end Sys2Proof.Machine
end

