-- ==== Sys2Proof/Machine/Operands.lean ====
section
/-! DEFINITION. How operands and fields are read: differences of timestamps, the RSSI comparison, the nibbles of a
byte, and the codes and packings of 30_encoding.md (R75, R76, R78), which are presentation only. -/

namespace Sys2Proof.Machine

/-! ## Timestamps and widths -/

/-- What a register of `TS_BITS` bits holds of a timestamp operand; with the default 32 bits, all of it
(00_scope.md R11, 30_encoding.md R82, log 3). -/
def stamp (cfg : Config) (now : Word) : Nat := now.toNat % 2 ^ cfg.tsBits

/-- `(now - earlier) mod 2^TS_BITS`, the interval from a held timestamp to a timestamp operand: exact on integers, then
narrowed (00_scope.md R14, 40_producer.md R107, log 3). -/
def interval (cfg : Config) (now : Word) (earlier : Nat) : Nat :=
  (((now.toNat : Int) - earlier) % 2 ^ cfg.tsBits).toNat

/-- One more, modulo `2^bits`: the step of the two counters (10_state.md R25, R27). -/
def countUp (bits count : Nat) : Nat := (count + 1) % 2 ^ bits

/-- The 32-bit timestamp the clock returns at the true time `t` in microseconds (20_memory.md R61). -/
def timestamp (t : Nat) : Word := BitVec.ofNat 32 t

/-- `lo ≤ w ≤ hi`, both ends inclusive (42_classifier.md R142, 00_scope.md R15). -/
def inBand (lo hi w : Nat) : Bool := lo ≤ w && w ≤ hi

/-- `rssi ≤ RSSI_THRESHOLD`, unsigned, equality included (41_window.md R121). -/
def strongEnough (cfg : Config) (rssi : Byte) : Bool := rssi.toNat ≤ cfg.rssiThreshold

/-! ## Nibbles and message bytes -/

/-- `b >> 4` (00_scope.md R13). -/
def highNibble (b : Byte) : Nat := (b >>> 4).toNat

/-- `b & 0xF` (00_scope.md R13). -/
def lowNibble (b : Byte) : Nat := (b &&& 0x0F#8).toNat

/-- `MSG[i]`, defined for `i` below the message's length (20_memory.md R52); the validator reads no other index, so
the default is never used (log 14). -/
def byteAt (m : List Byte) (i : Nat) : Byte := m.getD i 0

/-! ## Codes (presentation only) -/

/-- The 2-bit code of a window state (30_encoding.md R75). -/
def WinState.code : WinState → BitVec 2
  | .idle => 0b00#2
  | .capturing => 0b10#2

/-- The window state of a code; Armed and the reserved code are refused (30_encoding.md R75, R79). -/
def WinState.ofCode (c : BitVec 2) : Option WinState :=
  if c = 0b00#2 then some .idle else if c = 0b10#2 then some .capturing else none

/-- The 2-bit code of a tag, the number of chip periods it stands for (30_encoding.md R76). -/
def Tag.code : Tag → BitVec 2
  | .invalid => 0b00#2
  | .short => 0b01#2
  | .long => 0b10#2

/-- The tag of a code; the reserved code is refused (30_encoding.md R76, R79). -/
def Tag.ofCode (c : BitVec 2) : Option Tag :=
  if c = 0b00#2 then some .invalid
  else if c = 0b01#2 then some .short
  else if c = 0b10#2 then some .long
  else none

/-- The reading as one 64-bit word (30_encoding.md R78). -/
def DecodedReading.pack (r : DecodedReading) : BitVec 64 :=
  r.sensorType ++ r.channel ++ r.rollingCode ++ r.temperatureTenths ++ r.humidityPercent ++
    BitVec.ofBool r.batteryOk ++ 0#11

end Sys2Proof.Machine
end

