-- ==== Sys2Proof/Machine/Classifier.lean ====
section
/-! DEFINITION. The Pulse Classifier: CLASSIFY and IDLECHK (42_classifier.md). -/

namespace Sys2Proof.Machine

/-- The tag of a width (42_classifier.md R141). -/
def classifyTag (cfg : Config) (w : Nat) : Tag :=
  if inBand cfg.shortMinUs cfg.shortMaxUs w then .short
  else if inBand cfg.longMinUs cfg.longMaxUs w then .long
  else .invalid

/-- `gap > IDLE_LIMIT_US`, strictly, for the modular gap since the last edge (42_classifier.md R146). -/
def lineIdle (now : Word) (s : State) : Bool :=
  s.cfg.idleLimitUs < interval s.cfg now s.lastEdgeUs

/-- What CLASSIFY does to the state, its result apart (42_classifier.md R141). -/
def classifyEffect (w : Nat) (s : State) : State := s.noteTag (classifyTag s.cfg w)

/-- What IDLECHK does to the state, its result apart (42_classifier.md R146). -/
def idleEffect (now : Word) (s : State) : State := s.noteIdle (lineIdle now s)

/-- CLASSIFY (42_classifier.md R141); the width is the operand as it stands (30_encoding.md R82). -/
def execClassify (w : Word) (s : State) : Host.Outcome State Fault Refusal :=
  .next { classifyEffect w.toNat s with result := .classified ⟨classifyTag s.cfg w.toNat, w.toNat⟩ }

/-- IDLECHK (42_classifier.md R146). -/
def execIdlechk (now : Word) (s : State) : Host.Outcome State Fault Refusal :=
  .next { idleEffect now s with result := .idleChecked (lineIdle now s) }

end Sys2Proof.Machine
end

