-- ==== Sys2Proof/Machine/Ops.lean ====
section
/-! DEFINITION. The operations every meaning is built from: the message buffer, the message as the validator sees it,
the log of calls, the critical section, the output events, the decoder oracle, the test and the clearing of the pulse
slot.
There is no exception to take: the block raises none (60_exceptions.md R205), handler entry saves and switches nothing
(R213) and the return restores nothing (R214), so the interrupt's whole effect is EDGE (Producer.lean). -/

namespace Sys2Proof.Machine

/-! ## The message buffer (20_memory.md R50) -/

/-- What an unlisted index of `MSG` reads as: the reset contents (10_state.md R45). -/
def Memory.unlisted : Byte := 0

/-- The byte at an index of `MSG`. -/
def Memory.read : Memory → Nat → Byte
  | [], _ => Memory.unlisted
  | (b, v) :: m, a => if a = b then v else Memory.read m a

/-- Write one byte, keeping the canonical form: writing what an unlisted index reads as removes the entry. -/
def Memory.write : Memory → Nat → Byte → Memory
  | [], a, v => if v = Memory.unlisted then [] else [(a, v)]
  | (b, w) :: m, a, v =>
    if a < b then
      if v = Memory.unlisted then (b, w) :: m else (a, v) :: (b, w) :: m
    else if a = b then
      if v = Memory.unlisted then m else (a, v) :: m
    else (b, w) :: Memory.write m a v

/-- Write bytes at rising indices from `base`. -/
def Memory.writeBytes : Memory → Nat → List Byte → Memory
  | m, _, [] => m
  | m, base, v :: vs => Memory.writeBytes (Memory.write m base v) (base + 1) vs

/-- Indices strictly rising from `lo` on, no entry equal to what an unlisted index reads as. -/
def Memory.wfFrom : Nat → Memory → Bool
  | _, [] => true
  | lo, (a, v) :: m => decide (lo ≤ a) && v != Memory.unlisted && Memory.wfFrom (a + 1) m

/-- The canonical form of a message buffer. -/
def Memory.wf (m : Memory) : Bool := Memory.wfFrom 0 m

/-- Every listed index lies in the index space `0 .. bound-1` (20_memory.md R59). -/
def Memory.within (bound : Nat) (m : Memory) : Bool := m.all fun c => decide (c.1 < bound)

/-- The message: bytes `0` to `MSG_LEN - 1` of `MSG`. Bytes from `MSG_LEN` on are no part of it and reach no reader
(20_memory.md R52). -/
def State.message (s : State) : List Byte :=
  (List.range s.msgLen).map (Memory.read s.msg)

/-- `MSG[0 .. length-1] <- bytes ; MSG_LEN <- length` (44_pipeline.md R191). -/
def State.setMessage (s : State) (bytes : List Byte) : State :=
  { s with msg := Memory.writeBytes s.msg 0 bytes, msgLen := bytes.length }

/-! ## Calls, the critical section, events -/

/-- The block makes these calls on its collaborators, in this order (00_scope.md R8). -/
def State.call (s : State) (cs : List Call) : State := { s with calls := s.calls ++ cs }

/-- `Gpio.writePin(TRIG_PIN, level)` (00_scope.md R8, R11). -/
def State.writeTrig (s : State) (level : Bool) : State := s.call [.writePin (.trig s.cfg.trigPin) level]

/-- `crit { f }`: enter the critical section, do `f`, leave it (00_scope.md R14, 20_memory.md R58). -/
def State.crit (s : State) (f : State → State) : State :=
  (f (s.call [.enterCriticalSection])).call [.exitCriticalSection]

/-- `emit E` (00_scope.md R14, 10_state.md R37). -/
def State.emit (s : State) (e : Event) : State := { s with events := s.events ++ [e] }

/-- Emit a `Reading` if the validator found one, nothing otherwise (44_pipeline.md R193, 43_validator.md R172). -/
def State.emitReading (s : State) (v : Verdict) : State :=
  match v.reading? with
  | some r => s.emit (.reading r)
  | none => s

/-! ## The decoder oracle (44_pipeline.md R190, log 8) -/

/-- What the decoder answers to the next `feed`. -/
def Decoder.answer : Decoder → Option (List Byte)
  | .scripted [] => none
  | .scripted (a :: _) => a
  | .free n => Config.freeDecoder n

/-- The oracle after that answer. -/
def Decoder.advance : Decoder → Decoder
  | .scripted [] => .scripted []
  | .scripted (_ :: as) => .scripted as
  | .free n => .free (n + 1)

/-- `Decoder.feed(w)`: the answer is `s.decoder.answer`, this is the state after the call (44_pipeline.md R191). -/
def State.feed (s : State) (w : Nat) : State :=
  { s with decoder := s.decoder.advance }.call [.feed w]

/-! ## The pulse slot -/

/-- What a drain returns: the sample, or `None` when the width is 0 (40_producer.md R103, 10_state.md R23). -/
def State.slotSample (s : State) : Option PulseSample :=
  if s.slotWidth = 0 then none else some ⟨s.slotWidth, s.slotTime⟩

/-- What a drain does to the state: it clears the width, and the width only, in a critical section
(40_producer.md R103). -/
def State.clearSlot (s : State) : State :=
  s.crit fun t => { t with slotWidth := 0 }

/-- ProducerClear (40_producer.md R106): run by POLL at window open and by RESET. -/
def State.producerClear (s : State) : State :=
  s.crit fun t => { t with slotWidth := 0, slotTime := 0, edgeCount := 0 }

end Sys2Proof.Machine
end

