-- ==== Sys2Proof/Machine/Validator.lean ====
section
/-! DEFINITION. The Message Validator and Field Extractor: VALIDATE and the functions it is built from
(43_validator.md). `m` is the message, `MSG[0 .. MSG_LEN-1]`. -/

namespace Sys2Proof.Machine

/-- `nibbleSum(lo, hi)` over the half-open range, a natural number (43_validator.md R157, 00_scope.md R16). -/
def nibbleSum (m : List Byte) (lo hi : Nat) : Nat :=
  (((m.take hi).drop lo).map fun b => highNibble b + lowNibble b).sum

/-- `(bytes[0] << 8) | bytes[1]` (43_validator.md R159, 20_memory.md R51). -/
def sensorType (m : List Byte) : BitVec 16 :=
  ((byteAt m 0).setWidth 16 <<< 8) ||| (byteAt m 1).setWidth 16

/-- The temperature and humidity sensor family (30_encoding.md R89). -/
def type1A2D : BitVec 16 := 0x1A2D#16

/-- The temperature-only family (30_encoding.md R89). -/
def typeEA4C : BitVec 16 := 0xEA4C#16

/-- The checksum of type `0x1A2D` (43_validator.md R161): the subtraction on integers, then modulo 256 (R173). -/
def checksum1A2D (m : List Byte) : Bool :=
  byteAt m 8 == BitVec.ofInt 8 ((nibbleSum m 0 8 : Int) - 0x0A)

/-- `s` of the checksum of type `0xEA4C` (43_validator.md R162). -/
def checkByteEA4C (m : List Byte) : Byte :=
  BitVec.ofInt 8 ((nibbleSum m 0 6 : Int) + lowNibble (byteAt m 6) - 0x0A)

/-- The checksum of type `0xEA4C`, whole bytes compared as the formula is written (43_validator.md R162, R163;
log 17). -/
def checksumEA4C (m : List Byte) : Bool :=
  (checkByteEA4C m &&& 0x0F#8) <<< 4 == byteAt m 6 && checkByteEA4C m >>> 4 == byteAt m 7

/-- The temperature's magnitude in tenths of a degree; digits are not checked (43_validator.md R165). -/
def temperatureMagnitude (m : List Byte) : Nat :=
  (highNibble (byteAt m 5) * 10 + lowNibble (byteAt m 5)) * 10 + highNibble (byteAt m 4)

/-- The temperature, negated if bit 3 of byte 6 is set (43_validator.md R166). -/
def temperatureTenths (m : List Byte) : BitVec 16 :=
  BitVec.ofInt 16
    (if byteAt m 6 &&& 0x08#8 ≠ 0 then -(temperatureMagnitude m : Int) else temperatureMagnitude m)

/-- True iff bits 2 and 3 of byte 4 are both zero (43_validator.md R167). -/
def batteryOk (m : List Byte) : Bool := byteAt m 4 &&& 0x0C#8 == 0

/-- The humidity, 0 for types without it (43_validator.md R168). -/
def humidityPercent (m : List Byte) : BitVec 8 :=
  if sensorType m = type1A2D then
    BitVec.ofNat 8 (lowNibble (byteAt m 7) * 10 + highNibble (byteAt m 6))
  else 0

/-- The high nibble of byte 2 (43_validator.md R169). -/
def channel (m : List Byte) : BitVec 4 := BitVec.ofNat 4 (highNibble (byteAt m 2))

/-- Byte 3 with its nibbles swapped (43_validator.md R170). -/
def rollingCode (m : List Byte) : BitVec 8 :=
  ((byteAt m 3 &&& 0x0F#8) <<< 4) ||| (byteAt m 3 >>> 4)

/-- The assembled reading (43_validator.md R171). -/
def extractReading (m : List Byte) : DecodedReading where
  sensorType := sensorType m
  channel := channel m
  rollingCode := rollingCode m
  temperatureTenths := temperatureTenths m
  humidityPercent := humidityPercent m
  batteryOk := batteryOk m

/-- `MIN_LEN`, and never less than the 8 bytes the rules read and ask for (00_scope.md R11, 43_validator.md R158,
10_state.md R39; log 28). -/
def leastLength (cfg : Config) : Nat := max cfg.minLen 8

/-- `MIN_LEN_1A2D`, and never less than the 9 bytes type `0x1A2D` reads (00_scope.md R11, 43_validator.md R158;
log 28). -/
def leastLength1A2D (cfg : Config) : Nat := max cfg.minLen1A2D 9

/-- VALIDATE on a message, its checks in the order of 43_validator.md R156 (60_exceptions.md R212). -/
def validate (cfg : Config) (m : List Byte) : Verdict :=
  if m.length < leastLength cfg then .rejected .tooShort
  else if sensorType m = type1A2D then
    if m.length < leastLength1A2D cfg then .rejected .tooShort
    else if checksum1A2D m then .accepted (extractReading m)
    else .rejected .checksumMismatch
  else if sensorType m = typeEA4C then
    if checksumEA4C m then .accepted (extractReading m)
    else .rejected .checksumMismatch
  else .rejected .unknownType

/-- VALIDATE (43_validator.md R156): a pure function of the message; it writes no state of the block (R155). -/
def execValidate (s : State) : Host.Outcome State Fault Refusal :=
  .next { s with result := .validated (validate s.cfg s.message) }

end Sys2Proof.Machine
end

