-- ==== Sys2Proof/Machine/Pipeline.lean ====
section
/-! DEFINITION. The pulse path of the main loop: STEP, and NOP (44_pipeline.md). -/

namespace Sys2Proof.Machine

/-- What STEP does with a completed message: `getData`, fill the buffer, VALIDATE, emit a reading if there is one,
reset the decoder either way (44_pipeline.md R191, R193, R194). -/
def takeMessage (bytes : List Byte) (s : State) : State :=
  let t := (s.call [.getData]).setMessage bytes
  (t.emitReading (validate t.cfg t.message)).call [.decoderReset]

/-- STEP's first half when the slot held a sample: drained, classified, fed to the decoder whatever the tag
(44_pipeline.md R191, R192). -/
def forwardSample (p : PulseSample) (s : State) : State :=
  (classifyEffect p.widthUs s.clearSlot).feed p.widthUs

/-- STEP (44_pipeline.md R191). A message longer than `MSG_MAX` is refused (20_memory.md R50). -/
def execStep (now : Word) (s : State) : Host.Outcome State Fault Refusal :=
  match s.slotSample with
  | none => .next (idleEffect now s.clearSlot)
  | some p =>
    match s.decoder.answer with
    | none => .next (forwardSample p s)
    | some bytes =>
      if bytes.length ≤ s.cfg.msgMax then .next (takeMessage bytes (forwardSample p s))
      else .refused (.messageTooLong bytes.length)

/-- NOP (44_pipeline.md R198). -/
def execNop (s : State) : Host.Outcome State Fault Refusal := .next s

end Sys2Proof.Machine
end

