-- ==== Sys2Proof/Machine/Producer.lean ====
section
/-! DEFINITION. The Pulse Capture Producer: EDGE, the whole effect of the interrupt handler, and DRAIN
(40_producer.md). -/

namespace Sys2Proof.Machine

/-- EDGE (40_producer.md R101): it writes the four producer registers and does nothing else (R102). -/
def execEdge (now : Word) (s : State) : Host.Outcome State Fault Refusal :=
  .next { s with
    slotWidth := interval s.cfg now s.lastEdgeUs
    slotTime := stamp s.cfg now
    lastEdgeUs := stamp s.cfg now
    edgeCount := countUp s.cfg.edgeCntBits s.edgeCount }

/-- DRAIN (40_producer.md R103, R104). -/
def execDrain (s : State) : Host.Outcome State Fault Refusal :=
  .next { s.clearSlot with result := .drained s.slotSample }

end Sys2Proof.Machine
end

