-- ==== Sys2Proof/Machine/Reset.lean ====
section
/-! DEFINITION. RESET (70_reset_and_hazards.md). -/

namespace Sys2Proof.Machine

/-- RESET (70_reset_and_hazards.md R235), line for line. The configuration, the events still to come, the decoder and
the last result are no state of the block and stay (R235, log 21); the log of calls begins anew (log 10). -/
def execReset (s : State) : Host.Outcome State Fault Refusal :=
  .next ({ ({ s with calls := [] } : State).producerClear with
    lastEdgeUs := 0
    winState := .idle
    pollCount := 0
    trigRssi := 0
    openUs := 0
    trigOut := false
    active := false
    msg := []
    msgLen := 0
    events := [] }.writeTrig false)

end Sys2Proof.Machine
end

