-- ==== Sys2Proof/Machine/Window.lean ====
section
/-! DEFINITION. The Capture Window Controller: POLL and HBEAT (41_window.md). -/

namespace Sys2Proof.Machine

/-- The closing poll (41_window.md R125): the trigger line released, the controller Idle, the event emitted. -/
def closeWindow (now : Word) (s : State) : State :=
  ({ s with trigOut := false, winState := .idle, pollCount := 0 }.writeTrig false).emit
    (.windowClosed (interval s.cfg now s.openUs) s.trigRssi)

/-- The opening poll after its RSSI read (41_window.md R123): the trigger line raised, RSSI and time recorded, the
producer cleared. -/
def openWindow (now : Word) (rssi : Byte) (s : State) : State :=
  ({ s with
      winState := .capturing
      trigOut := true
      trigRssi := rssi
      openUs := stamp s.cfg now
      pollCount := 0 }.writeTrig true).producerClear

/-- POLL while a window is open (41_window.md R124, R125, R127): count, and close at `CAPTURE_POLLS`; RSSI is not
read. -/
def pollCapturing (now : Word) (s : State) : State :=
  let t : State := { s with pollCount := countUp s.cfg.pollCntBits s.pollCount }
  if t.pollCount = t.cfg.capturePolls then closeWindow now t else t

/-- POLL while no window is open (41_window.md R121, R123): read RSSI, and open at or below the threshold. -/
def pollIdle (now : Word) (rssi : Byte) (s : State) : State :=
  let t := s.call [.readRssi]
  if strongEnough t.cfg rssi then openWindow now rssi t else t

/-- POLL (41_window.md R122). -/
def execPoll (now : Word) (rssi : Byte) (s : State) : Host.Outcome State Fault Refusal :=
  .next (if s.capturing then pollCapturing now s else pollIdle now rssi s)

/-- HBEAT (41_window.md R129). -/
def execHbeat (now : Word) (s : State) : Host.Outcome State Fault Refusal :=
  .next (s.emit (.heartbeat now s.capturing))

end Sys2Proof.Machine
end

