-- ==== Sys2Proof/Machine/Dispatch.lean ====
section
/-! DEFINITION. One arm per operation of 30_encoding.md R80. -/

namespace Sys2Proof.Machine

def exec (i : Instr) (s : State) : Host.Outcome State Fault Refusal :=
  match i with
  | .nop => Sys2Proof.Machine.execNop s
  | .edge now => Sys2Proof.Machine.execEdge now s
  | .drain => Sys2Proof.Machine.execDrain s
  | .poll now rssi => Sys2Proof.Machine.execPoll now rssi s
  | .hbeat now => Sys2Proof.Machine.execHbeat now s
  | .classify w => Sys2Proof.Machine.execClassify w s
  | .idlechk now => Sys2Proof.Machine.execIdlechk now s
  | .validate => Sys2Proof.Machine.execValidate s
  | .step now => Sys2Proof.Machine.execStep now s
  | .reset => Sys2Proof.Machine.execReset s

end Sys2Proof.Machine
end

