-- ==== Sys2Proof/Machine/Fetch.lean ====
section
/-! DEFINITION. Where the next event comes from and which states may take one. The block has no program counter
(10_state.md R30): the events are an input, held in `inbox`. -/

namespace Sys2Proof.Machine

/-- The next event word, and the state with the events after it; none when no event is waiting (log 5). -/
def State.nextEvent? (s : State) : Option (EventWord × State) :=
  match s.inbox with
  | [] => none
  | w :: rest => some (w, { s with inbox := rest })

/-- Present an event word: it will be the next to run. -/
def State.present (s : State) (w : EventWord) : State := { s with inbox := w :: s.inbox }

/-- Every register holds no more than its width: `TS_BITS`, `EDGE_CNT_BITS` or `POLL_CNT_BITS` bits, by default the 32
of 10_state.md R20 (00_scope.md R11, log 3). -/
def State.fits (s : State) : Bool :=
  decide (s.slotWidth < 2 ^ s.cfg.tsBits) && decide (s.slotTime < 2 ^ s.cfg.tsBits) &&
  decide (s.lastEdgeUs < 2 ^ s.cfg.tsBits) && decide (s.openUs < 2 ^ s.cfg.tsBits) &&
  decide (s.edgeCount < 2 ^ s.cfg.edgeCntBits) && decide (s.pollCount < 2 ^ s.cfg.pollCntBits)

/-- The invariants of 70_reset_and_hazards.md R236; that `win_state` is Idle or Capturing is its type, and that the
registers fit their widths is what makes it a state of the block at all (10_state.md R20). -/
def State.startable (s : State) : Bool :=
  (s.trigOut == (s.winState == .capturing)) &&
  (if s.winState = .capturing then decide (s.pollCount < s.cfg.capturePolls) else s.pollCount == 0) &&
  decide (s.msgLen ≤ s.cfg.msgMax) && s.fits

/-- A run starts with RESET or from a state that satisfies the invariants (70_reset_and_hazards.md R236). -/
def State.mayRun (s : State) (i : Instr) : Bool := i == .reset || s.startable

end Sys2Proof.Machine
end

