-- ==== Sys2Proof/Machine/Step.lean ====
section
/-! DEFINITION. One step: the next event word is decoded and its operation run. -/

namespace Sys2Proof.Machine

/-- One step of the block. A configuration outside 00_scope.md R12 is refused; with no event waiting nothing changes
(log 5); a reserved word is refused (30_encoding.md R84); a state outside 70_reset_and_hazards.md R236 is refused
unless the operation is RESET (log 7). -/
def step (s : State) : Host.Outcome State Fault Refusal :=
  if s.cfg.legal then
    match s.nextEvent? with
    | none => .next s
    | some (w, t) =>
      match decode w with
      | .error e => .refused (.reservedWord e)
      | .ok i => if t.mayRun i then exec i t else .refused .illegalStart
  else .refused .illegalConfig

/-- `s` with the event word of `nbits` bits `w` as the next event to run (log 6, log 23). -/
def State.withFetchWord (s : State) (nbits w : Nat) : State :=
  s.present (BitVec.ofNat 48 (w % 2 ^ nbits))

end Sys2Proof.Machine
end

