-- ==== Sys2Proof/Machine/HostActions.lean ====
section
/-! DEFINITION. What the host may do to the block outside its operations: the directives of 30_encoding.md R88 and the
boot order of 70_reset_and_hazards.md R240. None of these is an operation of the block. -/

namespace Sys2Proof.Machine

/-- The parameters `.param` can set: the rows of 00_scope.md R11. -/
inductive Param where
  | tsBits | edgeCntBits | rssiThreshold | pollPeriodUs | capturePolls | pollCntBits | chipUs
  | shortMinUs | shortMaxUs | longMinUs | longMaxUs | idleLimitUs | msgMax | minLen | minLen1A2D
  | heartbeatPeriod | demodPin | trigPin | activePin | radioHz
deriving DecidableEq, Repr

/-- Set one row of the configuration. Whether the result is legal is checked where it is used (00_scope.md R12). -/
def setParam (p : Param) (v : Nat) (c : Config) : Config :=
  match p with
  | .tsBits => { c with tsBits := v }
  | .edgeCntBits => { c with edgeCntBits := v }
  | .rssiThreshold => { c with rssiThreshold := v }
  | .pollPeriodUs => { c with pollPeriodUs := v }
  | .capturePolls => { c with capturePolls := v }
  | .pollCntBits => { c with pollCntBits := v }
  | .chipUs => { c with chipUs := v }
  | .shortMinUs => { c with shortMinUs := v }
  | .shortMaxUs => { c with shortMaxUs := v }
  | .longMinUs => { c with longMinUs := v }
  | .longMaxUs => { c with longMaxUs := v }
  | .idleLimitUs => { c with idleLimitUs := v }
  | .msgMax => { c with msgMax := v }
  | .minLen => { c with minLen := v }
  | .minLen1A2D => { c with minLen1A2D := v }
  | .heartbeatPeriod => { c with heartbeatPeriod := some v }
  | .demodPin => { c with demodPin := some v }
  | .trigPin => { c with trigPin := some v }
  | .activePin => { c with activePin := some v }
  | .radioHz => { c with radioHz := some v }

/-- A directive of a listing (30_encoding.md R88). -/
inductive Directive where
  /-- `.msg b0 b1 ... bk`. -/
  | msg (bytes : List Byte)
  /-- `.decoder done b0 b1 ... bk`. -/
  | decoderDone (bytes : List Byte)
  /-- `.param NAME value`, before the first RESET. -/
  | param (p : Param) (value : Nat)
deriving DecidableEq, Repr

/-- The directive sets a parameter. -/
def Directive.isParam : Directive → Bool
  | .msg _ => false
  | .decoderDone _ => false
  | .param _ _ => true

/-- The oracle with this answer put before all others: it is the answer to the next `feed` (30_encoding.md R88, log 9). -/
def Decoder.scriptNext (bytes : List Byte) : Decoder → Decoder
  | .scripted answers => .scripted (some bytes :: answers)
  | .free _ => .scripted [some bytes]

/-- What a directive does. A message longer than `MSG_MAX` is refused (20_memory.md R50, log 24). -/
def directive (d : Directive) (s : State) : Host.Outcome State Fault Refusal :=
  match d with
  | .msg bytes =>
    if bytes.length ≤ s.cfg.msgMax then .next (s.setMessage bytes) else .refused (.messageTooLong bytes.length)
  | .decoderDone bytes => .next { s with decoder := s.decoder.scriptNext bytes }
  | .param p v => .next { s with cfg := setParam p v s.cfg }

/-! ## Boot -/

/-- What the handler does when the input changes while the clock reads `now` (40_producer.md R101, 00_scope.md R10). -/
def Handler.operation (h : Handler) (now : Word) : Instr :=
  match h with
  | .producer => .edge now

/-- The calls boot software makes before RESET, after a successful initialisation of the radio driver, with the
parameters they take (70_reset_and_hazards.md R240 (2), (3), 00_scope.md R11). -/
def bootCalls (cfg : Config) : List Call :=
  [.setFrequency cfg.radioHz, .setReceiveMode, .setPinMode (.demod cfg.demodPin) .input,
    .setPinMode (.trig cfg.trigPin) .output, .writePin (.trig cfg.trigPin) false]

/-- Boot: the calls, RESET, and the edge interrupt attached last, so that no EDGE runs before the state is initial
(70_reset_and_hazards.md R240). An illegal configuration is refused (R241, 93_implementation_defined.md U22). -/
def boot (s : State) : Host.Outcome State Fault Refusal :=
  if s.cfg.legal then
    match execReset s with
    | .next t => .next { t with
        calls := bootCalls s.cfg ++ t.calls ++ [.attachEdgeInterrupt (.demod s.cfg.demodPin) .producer] }
    | .fault f => .fault f
    | .refused r => .refused r
  else .refused .illegalConfig

end Sys2Proof.Machine
end

