-- ==== Sys2Proof/Machine/Listing.lean ====
section
/-! DEFINITION. Listing lines and the operations they stand for (30_encoding.md R87, R88). The host's format, not the
block's. -/

namespace Sys2Proof.Machine

/-- `LOOP now, rssi`: one iteration of the main loop, POLL then STEP (30_encoding.md R88, 44_pipeline.md R196). -/
def loopIteration (now : Word) (rssi : Byte) : List Instr := [.poll now rssi, .step now]

/-- The operations a well-formed line stands for; none for an ill-formed one. `TAKE` is `DRAIN` (30_encoding.md R88). -/
def assemble (l : Line) : Option (List Instr) :=
  if l.wellFormed then
    match l.name, l.operands with
    | .nop, _ => some [.nop]
    | .edge, now :: _ => some [.edge (BitVec.ofNat 32 now)]
    | .drain, _ => some [.drain]
    | .poll, now :: rssi :: _ => some [.poll (BitVec.ofNat 32 now) (BitVec.ofNat 8 rssi)]
    | .hbeat, now :: _ => some [.hbeat (BitVec.ofNat 32 now)]
    | .classify, w :: _ => some [.classify (BitVec.ofNat 32 w)]
    | .idlechk, now :: _ => some [.idlechk (BitVec.ofNat 32 now)]
    | .validate, _ => some [.validate]
    | .step, now :: _ => some [.step (BitVec.ofNat 32 now)]
    | .reset, _ => some [.reset]
    | .take, _ => some [.drain]
    | .loop, now :: rssi :: _ => some (loopIteration (BitVec.ofNat 32 now) (BitVec.ofNat 8 rssi))
    | _, _ => none
  else none

/-- The line of an operation (30_encoding.md R87). -/
def listing : Instr → Line
  | .nop => ⟨.nop, []⟩
  | .edge now => ⟨.edge, [now.toNat]⟩
  | .drain => ⟨.drain, []⟩
  | .poll now rssi => ⟨.poll, [now.toNat, rssi.toNat]⟩
  | .hbeat now => ⟨.hbeat, [now.toNat]⟩
  | .classify w => ⟨.classify, [w.toNat]⟩
  | .idlechk now => ⟨.idlechk, [now.toNat]⟩
  | .validate => ⟨.validate, []⟩
  | .step now => ⟨.step, [now.toNat]⟩
  | .reset => ⟨.reset, []⟩

end Sys2Proof.Machine
end

