-- ==== Sys2Proof/Machine/Run.lean ====
section
/-! DEFINITION. Running a listing: lines and directives in order, from a state whose decoder has nothing scripted
(30_encoding.md R87, R88). -/

namespace Sys2Proof.Machine

/-- One item of a listing: a line or a directive (30_encoding.md R87, R88). -/
inductive Item where
  | line (l : Line)
  | directive (d : Directive)
deriving DecidableEq, Repr

/-- `s` with the decoder oracle of a listing that has scripted nothing yet: `feed` returns false until a `.decoder`
directive scripts an answer, and again once that answer is used up (30_encoding.md R88). -/
def State.withListingDecoder (s : State) : State := { s with decoder := .scripted [] }

/-- Operations one after the other, each presented as its event word and run by one step. -/
def runOperations : List Instr → State → Host.Outcome State Fault Refusal
  | [], s => .next s
  | i :: is, s =>
    match step (s.present (encode i)) with
    | .next t => runOperations is t
    | .fault f => .fault f
    | .refused r => .refused r

/-- The items of a listing from `s`; `wasReset` says that a RESET has run, after which `.param` has no place
(30_encoding.md R88, 70_reset_and_hazards.md R241). -/
def runItems : Bool → List Item → State → Host.Outcome State Fault Refusal
  | _, [], s => .next s
  | wasReset, .directive d :: items, s =>
    if wasReset && d.isParam then .refused .lateParameter
    else
      match directive d s with
      | .next t => runItems wasReset items t
      | .fault f => .fault f
      | .refused r => .refused r
  | wasReset, .line l :: items, s =>
    match assemble l with
    | none => .refused .illFormedLine
    | some is =>
      match runOperations is s with
      | .next t => runItems (wasReset || is.contains .reset) items t
      | .fault f => .fault f
      | .refused r => .refused r

/-- A whole listing (30_encoding.md R87, R88). -/
def runListing (items : List Item) (s : State) : Host.Outcome State Fault Refusal :=
  runItems false items s.withListingDecoder

end Sys2Proof.Machine
end

