-- ==== Sys2Proof/Safety.lean ====
section
/-! DEFINITION. What claims about the block are stated in: the invariant of a state, runs of several operations, the
samples a run produces and delivers, the premise on the decoder, and the corruption of a message. -/

namespace Sys2Proof.Machine

/-! ## The invariant -/

/-- A legal configuration, the invariants of 70_reset_and_hazards.md R236, and the message buffer in canonical form
inside its index space (20_memory.md R59). -/
def State.inv (s : State) : Bool :=
  s.cfg.legal && s.startable && Memory.wf s.msg && Memory.within s.cfg.msgMax s.msg

/-- The decoder's next answer fits the message buffer (20_memory.md R50). -/
def State.answerFits (s : State) : Prop :=
  ∀ bytes, s.decoder.answer = some bytes → bytes.length ≤ s.cfg.msgMax

/-! ## Runs -/

/-- Operations one after the other, in any order the environment presents them (20_memory.md R62); the run stops at
the first one the model refuses. -/
def execAll : List Instr → State → Host.Outcome State Fault Refusal
  | [], s => .next s
  | i :: is, s =>
    match exec i s with
    | .next t => execAll is t
    | .fault f => .fault f
    | .refused r => .refused r

/-- Something gathered from each operation of a run, in order, the one the model refuses included. -/
def gather {α : Type} (f : Instr → State → List α) : List Instr → State → List α
  | [], _ => []
  | i :: is, s =>
    f i s ++
      match exec i s with
      | .next t => gather f is t
      | .fault _ => []
      | .refused _ => []

/-- Every operation of a run passes the test, in the state it is run in. -/
def everyIn (p : Instr → State → Bool) : List Instr → State → Bool
  | [], _ => true
  | i :: is, s =>
    p i s &&
      match exec i s with
      | .next t => everyIn p is t
      | .fault _ => true
      | .refused _ => true

/-! ## Samples, edges, polls -/

/-- The sample one operation stores in the slot: EDGE's, and no other's (40_producer.md R101). -/
def sampleStored (i : Instr) (s : State) : List PulseSample :=
  match i with
  | .nop => []
  | .edge now => [⟨interval s.cfg now s.lastEdgeUs, stamp s.cfg now⟩]
  | .drain => []
  | .poll _ _ => []
  | .hbeat _ => []
  | .classify _ => []
  | .idlechk _ => []
  | .validate => []
  | .step _ => []
  | .reset => []

/-- The sample one operation takes out of the slot: DRAIN's, and that of the DRAIN inside STEP
(40_producer.md R103, 44_pipeline.md R191, log 27). -/
def sampleTaken (i : Instr) (s : State) : List PulseSample :=
  match i with
  | .nop => []
  | .edge _ => []
  | .drain => s.slotSample.toList
  | .poll _ _ => []
  | .hbeat _ => []
  | .classify _ => []
  | .idlechk _ => []
  | .validate => []
  | .step _ => s.slotSample.toList
  | .reset => []

/-- How many EDGEs a list of operations holds. -/
def edgesIn (ops : List Instr) : Nat := ops.countP fun i => i.name == .edge

/-- How many POLLs a list of operations holds. -/
def pollsIn (ops : List Instr) : Nat := ops.countP fun i => i.name == .poll

/-- The operation runs ProducerClear in this state: a POLL that opens a window, or RESET (40_producer.md R106). -/
def clearsProducer (i : Instr) (s : State) : Bool :=
  match i with
  | .nop => false
  | .edge _ => false
  | .drain => false
  | .poll _ rssi => s.winState == .idle && strongEnough s.cfg rssi
  | .hbeat _ => false
  | .classify _ => false
  | .idlechk _ => false
  | .validate => false
  | .step _ => false
  | .reset => true

/-- The operation does not run ProducerClear in this state. -/
def keepsProducer (i : Instr) (s : State) : Bool := !clearsProducer i s

/-- The operation neither stores a sample, nor takes one, nor runs ProducerClear in this state. -/
def leavesSlot (i : Instr) (s : State) : Bool :=
  match i with
  | .nop => true
  | .edge _ => false
  | .drain => false
  | .poll now rssi => keepsProducer (.poll now rssi) s
  | .hbeat _ => true
  | .classify _ => true
  | .idlechk _ => true
  | .validate => true
  | .step _ => false
  | .reset => false

/-- The event is a `WindowClosed`. -/
def Event.isWindowClosed : Event → Bool
  | .reading _ => false
  | .windowClosed _ _ => true
  | .heartbeat _ _ => false

/-- The call writes a pin. -/
def Call.isWritePin : Call → Bool
  | .readRssi => false
  | .writePin _ _ => true
  | .enterCriticalSection => false
  | .exitCriticalSection => false
  | .feed _ => false
  | .getData => false
  | .decoderReset => false
  | .setReceiveMode => false
  | .setFrequency _ => false
  | .setPinMode _ _ => false
  | .attachEdgeInterrupt _ _ => false

/-! ## The premise on the decoder (44_pipeline.md R197) -/

/-- The widths fed since the last `Decoder.reset()`, or since RESET, oldest first. -/
def fedSinceReset : List Call → List Nat
  | [] => []
  | .decoderReset :: cs => fedSinceReset cs
  | .feed w :: cs => if Call.decoderReset ∈ cs then fedSinceReset cs else w :: fedSinceReset cs
  | _ :: cs => fedSinceReset cs

/-- Every width fed since the last decoder reset is Invalid. -/
def State.onlyInvalidFed (s : State) : Prop :=
  ∀ w ∈ fedSinceReset s.calls, classifyTag s.cfg w = .invalid

/-- `DecoderNeedsValidPulses` at one state (44_pipeline.md R197): if the slot holds a width, so that a STEP feeds it,
and it and every width fed since the last reset are Invalid, `feed` returns false. A premise on the oracle, not a fact
about the block. -/
def DecoderNeedsValidPulses (s : State) : Prop :=
  s.slotWidth ≠ 0 → s.onlyInvalidFed → classifyTag s.cfg s.slotWidth = .invalid → s.decoder.answer = none

/-- The premise at every state of a run in which a STEP is next. -/
def DecoderNeedsValidPulsesIn (ops : List Instr) (s : State) : Prop :=
  ∀ (before after : List Instr) (now : Word) (u : State),
    ops = before ++ .step now :: after → execAll before s = .next u → DecoderNeedsValidPulses u

/-! ## Corruption of a message (43_validator.md R175) -/

/-- The message with bit `k` of byte `i` flipped. -/
def flipBit (m : List Byte) (i k : Nat) : List Byte := m.set i (byteAt m i ^^^ (1#8 <<< k))

end Sys2Proof.Machine
end

