-- ==== Sys2Proof/Certificates/Slice0/Obligations.lean ====
section
/-! DEFINITION. The statements for the provers, by file of spec/. A docstring cites the rule its statement formalises;
where a rule rests on the spec's own decision D<n> (92_eei_decisions.md) or on a log entry of this model, it says so.
In an equation `exec i s = .next { s with … }` every field not written stands unchanged: that is the frame. -/

open Sys2Proof Sys2Proof.Machine

/-! ## Encodings (30_encoding.md) -/

/-- Decoding an encoded instruction gives it back, every operand at every value (R81 to R83; the encoding is the
spec's own, D3). -/
def Obligations.DecodeOfEncodeIsTheInstruction : Prop :=
  ∀ i : Instr, i.wellFormed = true → decode (encode i) = .ok i

/-- A word that decodes is the encoding of what it decodes to: no two words stand for one instruction, and no bit of an
accepted word is ignored (R82, R84; D3, D34). -/
def Obligations.EncodeOfDecodeIsTheWord : Prop :=
  ∀ (w : EventWord) (i : Instr), decode w = .ok i → encode i = w

/-- A word decodes to an instruction of a row of the opcode map exactly when `w & mask = match` for that row (R83;
D3). -/
def Obligations.DecodeSelectsExactlyTheMatchingRow : Prop :=
  ∀ r ∈ opcodeMap, ∀ w : EventWord,
    (∃ i, decode w = .ok i ∧ i.name = r.name) ↔ w &&& r.mask = r.matchBits

/-- A reserved word is refused, whatever the state: an operation code `0x09` to `0xFE`, or a known one with a field it
does not use not 0 (R84; the refusal is the spec's own decision D34). -/
def Obligations.ReservedWordsAreRefused : Prop :=
  ∀ (s : State) (w : EventWord) (rest : List EventWord), s.cfg.legal = true → s.inbox = w :: rest →
    (0x09 ≤ (EventWord.op w).toNat ∧ (EventWord.op w).toNat ≤ 0xFE →
      step s = .refused (.reservedWord .reservedOpcode)) ∧
    ((EventWord.op w).toNat ∈ [0x00, 0x02, 0x07, 0xFF] →
      (EventWord.fieldA w ≠ 0 ∨ EventWord.fieldB w ≠ 0) →
      step s = .refused (.reservedWord .nonzeroUnusedField)) ∧
    ((EventWord.op w).toNat ∈ [0x01, 0x04, 0x05, 0x06, 0x08] → EventWord.fieldB w ≠ 0 →
      step s = .refused (.reservedWord .nonzeroUnusedField))

/-- Words of the spec's own table of event words decode as it says (95_test_vectors.md, "Event words"). -/
def Obligations.TableWordsDecodeAsListed : Prop :=
  decode 0x000000000000#48 = .ok .nop ∧
  decode 0x01000003E800#48 = .ok (.edge 1000) ∧
  decode 0x01FFFFFFFF00#48 = .ok (.edge 4294967295) ∧
  decode 0x020000000000#48 = .ok .drain ∧
  decode 0x0300001388B4#48 = .ok (.poll 5000 180) ∧
  decode 0x040000138800#48 = .ok (.hbeat 5000) ∧
  decode 0x05000001E800#48 = .ok (.classify 488) ∧
  decode 0x060000138800#48 = .ok (.idlechk 5000) ∧
  decode 0x070000000000#48 = .ok .validate ∧
  decode 0x080000138800#48 = .ok (.step 5000) ∧
  decode 0xFF0000000000#48 = .ok .reset

/-- A step runs the operation the next event word decodes to, in the state that has that word taken from its input:
from a state a run may be in, or for RESET from any state (R81, R82; the event list is D4). -/
def Obligations.StepRunsTheDecodedOperation : Prop :=
  ∀ (s : State) (w : EventWord) (rest : List EventWord) (i : Instr),
    s.cfg.legal = true → s.inbox = w :: rest → decode w = .ok i → (i = .reset ∨ s.startable = true) →
    step s = exec i { s with inbox := rest }

/-- The other outcomes of a step. A configuration outside R12 is refused (00_scope.md R12, the spec's decision D35).
With no event waiting nothing changes (the model's choice, log 5). A state that fails 70_reset_and_hazards.md R236 is
refused for every operation but RESET: 30_encoding.md R79 refuses such a start state where it holds a reserved code
(D12, D13), and that the model does so for all of R236, at every step, is its own inference (log 7). -/
def Obligations.StepOutsideItsDomain : Prop :=
  (∀ s : State, s.cfg.legal = false → step s = .refused .illegalConfig) ∧
  (∀ s : State, s.cfg.legal = true → s.inbox = [] → step s = .next s) ∧
  (∀ (s : State) (w : EventWord) (rest : List EventWord) (i : Instr),
    s.cfg.legal = true → s.inbox = w :: rest → decode w = .ok i → i ≠ .reset → s.startable = false →
    step s = .refused .illegalStart)

/-- A listing line assembles to its operation; `TAKE` is DRAIN and `LOOP now, rssi` is POLL then STEP (R87, R88; the
listing is the spec's own, D2; lines as tokens, log 25). -/
def Obligations.ListingLinesAssemble : Prop :=
  (∀ i : Instr, assemble (listing i) = some [i]) ∧
  assemble ⟨.take, []⟩ = some [.drain] ∧
  (∀ (now : Word) (rssi : Byte),
    assemble ⟨.loop, [now.toNat, rssi.toNat]⟩ = some [.poll now rssi, .step now])

/-- The 64-bit packing of a reading puts each field where R78 says and nothing below bit 11 (R78; the packing is the
spec's own, D29). -/
def Obligations.PackedReadingHoldsItsFields : Prop :=
  ∀ r : DecodedReading,
    r.pack.extractLsb' 48 16 = r.sensorType ∧ r.pack.extractLsb' 44 4 = r.channel ∧
    r.pack.extractLsb' 36 8 = r.rollingCode ∧ r.pack.extractLsb' 20 16 = r.temperatureTenths ∧
    r.pack.extractLsb' 12 8 = r.humidityPercent ∧ r.pack.getLsbD 11 = r.batteryOk ∧
    r.pack.extractLsb' 0 11 = 0

/-! ## The producer (40_producer.md) -/

/-- EDGE: its result and its frame (R101; the modular difference and increment are the spec's decisions D5, D6; that
`TS_BITS` and `EDGE_CNT_BITS` stand for the 32 of the rule's moduli is log 3). With the default 32 bits the whole clock
value is stored. -/
def Obligations.EdgeStoresIntervalAndCounts : Prop :=
  (∀ (now : Word) (s : State), ∃ width : Nat,
    exec (.edge now) s = .next { s with
      slotWidth := width
      slotTime := now.toNat % 2 ^ s.cfg.tsBits
      lastEdgeUs := now.toNat % 2 ^ s.cfg.tsBits
      edgeCount := (s.edgeCount + 1) % 2 ^ s.cfg.edgeCntBits } ∧
    (width : Int) = ((now.toNat : Int) - s.lastEdgeUs) % 2 ^ s.cfg.tsBits) ∧
  ∀ now : Word, now.toNat % 2 ^ Config.default.tsBits = now.toNat

/-- What EDGE may not do (R102): whatever it answers with differs in the four producer registers only, so it emits no
event and makes no call, and what it writes there depends on nothing but the clock value and the producer's
registers. -/
def Obligations.EdgeTouchesOnlyTheProducer : Prop :=
  (∀ (now : Word) (s : State), ∃ t, exec (.edge now) s = .next t ∧ t.calls = s.calls ∧ t.events = s.events ∧
    t = { s with
      slotWidth := t.slotWidth, slotTime := t.slotTime, lastEdgeUs := t.lastEdgeUs, edgeCount := t.edgeCount }) ∧
  (∀ (now : Word) (s s' t t' : State), s.cfg = s'.cfg → s.lastEdgeUs = s'.lastEdgeUs → s.edgeCount = s'.edgeCount →
    exec (.edge now) s = .next t → exec (.edge now) s' = .next t' →
    t.slotWidth = t'.slotWidth ∧ t.slotTime = t'.slotTime ∧ t.lastEdgeUs = t'.lastEdgeUs ∧
      t.edgeCount = t'.edgeCount)

/-- The width is the true interval when that is below 2^TS_BITS microseconds, across a wrap of the clock too; it is 0,
and the slot reads empty, exactly when the true interval is a multiple of that (R107 with 20_memory.md R61; D5;
`TS_BITS` for 32 is log 3). A timestamp of more bits than the clock's 32 is out of R61's reach. -/
def Obligations.EdgeWidthIsTheTrueInterval : Prop :=
  ∀ (earlier later : Nat) (s : State), s.cfg.tsBits ≤ 32 → earlier ≤ later →
    s.lastEdgeUs = (timestamp earlier).toNat % 2 ^ s.cfg.tsBits →
    ∃ t, exec (.edge (timestamp later)) s = .next t ∧
      (later - earlier < 2 ^ s.cfg.tsBits → t.slotWidth = later - earlier) ∧
      (t.slotEmpty = true ↔ (later - earlier) % 2 ^ s.cfg.tsBits = 0)

/-- Two edges before a drain (R105), with any operations between them and after the second that neither touch the slot
nor run ProducerClear (NOP, HBEAT, CLASSIFY, IDLECHK, VALIDATE, POLLs that open no window): everything completes, with
no exception; a drain then returns the later pulse; no later drain returns the earlier one (what later operations take
is a subsequence of the later sample and of the samples stored after it); both edges are counted. The widths of the
interval, the time and the counter are parameters (log 3). -/
def Obligations.LaterEdgeOverwritesTheSlot : Prop :=
  ∀ (t1 t2 : Word) (between after : List Instr) (s : State),
    ∃ a, exec (.edge t1) s = .next a ∧ (everyIn leavesSlot between a = true →
    ∃ b, execAll between a = .next b ∧
    ∃ c, exec (.edge t2) b = .next c ∧ (everyIn leavesSlot after c = true →
    ∃ u, execAll after c = .next u ∧
      u.edgeCount = (s.edgeCount + 2) % 2 ^ s.cfg.edgeCntBits ∧
      ∃ width : Nat, (width : Int) = ((t2.toNat : Int) - t1.toNat) % 2 ^ s.cfg.tsBits ∧
        (width ≠ 0 → ∃ v, exec .drain u = .next v ∧
          v.result = .drained (some ⟨width, t2.toNat % 2 ^ s.cfg.tsBits⟩)) ∧
        (∀ later : List Instr, (gather sampleTaken later u).Sublist
          (⟨width, t2.toNat % 2 ^ s.cfg.tsBits⟩ :: gather sampleStored later u))))

/-- DRAIN: it returns the sample, or None when the width is 0, and clears the width and nothing else of the block, in a
critical section (R103; that the time and the counter survive is the spec's decision D7). -/
def Obligations.DrainTakesTheSample : Prop :=
  ∀ s : State, ∃ sample,
    exec .drain s = .next { s with
      slotWidth := 0
      calls := s.calls ++ [.enterCriticalSection, .exitCriticalSection]
      result := .drained sample } ∧
    (s.slotWidth = 0 → sample = none) ∧
    (s.slotWidth ≠ 0 → sample = some ⟨s.slotWidth, s.slotTime⟩)

/-- A drain is a destructive read: a second one with no EDGE between returns None, and so does one after any operations
that hold no EDGE (20_memory.md R57, 40_producer.md R104). -/
def Obligations.DrainAgainReturnsNone : Prop :=
  ∀ (s t u : State) (between : List Instr), edgesIn between = 0 →
    execAll (.drain :: between) s = .next t → exec .drain t = .next u → u.result = .drained none

/-- The samples that drains take are a subsequence, in order, of the samples EDGEs stored: an undrained sample at the
start comes first (20_memory.md R66). First for one operation, which is what every run rests on, then for every run.
That STEP's inner DRAIN is one of the drains is read from the pseudocode of 44_pipeline.md R191, the spec's decision D31
(log 27). That none is dropped is a premise on timing and not claimed. -/
def Obligations.DrainedSamplesAreASubsequence : Prop :=
  (∀ (i : Instr) (s t : State), exec i s = .next t →
    (sampleTaken i s ++ t.slotSample.toList).Sublist (s.slotSample.toList ++ sampleStored i s)) ∧
  ∀ (ops : List Instr) (s : State),
    (gather sampleTaken ops s).Sublist (s.slotSample.toList ++ gather sampleStored ops s)

/-- The edge counter counts the EDGEs since the last ProducerClear, modulo 2^EDGE_CNT_BITS, and no operation reads it:
starting from another count changes the count and nothing else (R108; the width is D6, as a parameter log 3).
ProducerClear, which only RESET and a POLL that opens a window run, sets it to 0; between two of them every other
operation may run, POLLs inside a window and in Idle above the threshold included. -/
def Obligations.EdgeCounterCountsEdges : Prop :=
  (∀ (i : Instr) (s t : State), clearsProducer i s = true → exec i s = .next t → t.edgeCount = 0) ∧
  (∀ (ops : List Instr) (s t : State), s.edgeCount < 2 ^ s.cfg.edgeCntBits → everyIn keepsProducer ops s = true →
    execAll ops s = .next t → t.edgeCount = (s.edgeCount + edgesIn ops) % 2 ^ s.cfg.edgeCntBits) ∧
  (∀ (i : Instr) (s t : State) (count : Nat), exec i s = .next t →
    ∃ count', exec i { s with edgeCount := count } = .next { t with edgeCount := count' })

/-! ## The window controller (41_window.md) -/

/-- The comparator (R121): a POLL in Idle opens a window exactly when the RSSI byte is at or below the threshold, as
unsigned numbers; with the default threshold 180, 179 and 0 open, 181 and 200 do not. -/
def Obligations.PollOpensAtOrBelowTheThreshold : Prop :=
  (∀ (now : Word) (rssi : Byte) (s : State), s.winState = .idle →
    ∃ t, exec (.poll now rssi) s = .next t ∧
      (t.winState = .capturing ↔ rssi.toNat ≤ s.cfg.rssiThreshold)) ∧
  (∀ (now : Word) (s : State), s.winState = .idle → s.cfg.rssiThreshold = Config.default.rssiThreshold →
    (∀ rssi ∈ [180#8, 179#8, 0#8], ∃ t, exec (.poll now rssi) s = .next t ∧ t.winState = .capturing) ∧
    (∀ rssi ∈ [181#8, 200#8], ∃ t, exec (.poll now rssi) s = .next t ∧ t.winState = .idle))

/-- The opening poll: its result and its frame, ProducerClear included, `last_edge_us` kept (R123, 40_producer.md R106;
the recorded time and the cleared time are the spec's decisions D8, D17; the width of the recorded time is log 3). The
order of the calls in the equation is the model's (log 22): R122 says that the order inside a branch cannot be
observed. -/
def Obligations.OpeningPollRaisesTheTrigger : Prop :=
  ∀ (now : Word) (rssi : Byte) (s : State), s.winState = .idle → rssi.toNat ≤ s.cfg.rssiThreshold →
    exec (.poll now rssi) s = .next { s with
      winState := .capturing, trigOut := true, trigRssi := rssi, openUs := now.toNat % 2 ^ s.cfg.tsBits
      pollCount := 0, slotWidth := 0, slotTime := 0, edgeCount := 0
      calls := s.calls ++
        [.readRssi, .writePin (.trig s.cfg.trigPin) true, .enterCriticalSection, .exitCriticalSection] }

/-- A POLL inside a window counts, makes no call and changes nothing else (R124, R127; D16). The counter does not wrap
while it is below `CAPTURE_POLLS` (10_state.md R27; `POLL_CNT_BITS` for its 32 is log 3). -/
def Obligations.PollInsideAWindowCounts : Prop :=
  ∀ (now : Word) (rssi : Byte) (s : State), s.winState = .capturing → s.pollCount + 1 < 2 ^ s.cfg.pollCntBits →
    s.pollCount + 1 ≠ s.cfg.capturePolls →
    exec (.poll now rssi) s = .next { s with pollCount := s.pollCount + 1 }

/-- The closing poll: its result and its frame (R125; the count and the event's fields are the spec's decisions D16,
D17; `TS_BITS` and `POLL_CNT_BITS` for 32 are log 3). No field tells the order of its one call and the event. -/
def Obligations.ClosingPollReleasesTheTrigger : Prop :=
  ∀ (now : Word) (rssi : Byte) (s : State), s.winState = .capturing → s.pollCount + 1 < 2 ^ s.cfg.pollCntBits →
    s.pollCount + 1 = s.cfg.capturePolls →
    ∃ elapsed : Nat,
      exec (.poll now rssi) s = .next { s with
        winState := .idle, trigOut := false, pollCount := 0
        calls := s.calls ++ [.writePin (.trig s.cfg.trigPin) false]
        events := s.events ++ [.windowClosed elapsed s.trigRssi] } ∧
      (elapsed : Int) = ((now.toNat : Int) - s.openUs) % 2 ^ s.cfg.tsBits

/-- RSSI readings above the threshold never leave Idle (R130): any number of such POLLs leaves every element of state
unchanged and emits nothing, and each makes one call, `readRssi`, and no other (R122; the log of calls is the model's,
log 10); with the default threshold, readings held at 200 are such. -/
def Obligations.WeakSignalNeverLeavesIdle : Prop :=
  (∀ (s : State) (polls : List (Word × Byte)), s.winState = .idle →
    (∀ p ∈ polls, s.cfg.rssiThreshold < p.2.toNat) →
    execAll (polls.map fun p => .poll p.1 p.2) s =
      .next { s with calls := s.calls ++ List.replicate polls.length .readRssi }) ∧
  Config.default.rssiThreshold < (200#8).toNat

/-- Idempotence of an open window (R126), in every interleaving (00_scope.md R10): whatever the RSSI operands, and
whatever operations but RESET stand between the POLLs, the `N` POLLs after the opening one leave `trig_rssi` and
`open_us`, never run ProducerClear, and the `N`-th of them, no earlier one, closes the window; until then no pin is
written and no `WindowClosed` emitted, then one of each, and RSSI is never read. POLLs alone always complete.
What is counted and what the event holds are R124 and R125, the spec's decisions D16, D17. -/
def Obligations.WindowClosesAtTheNthPoll : Prop :=
  (∀ (s t : State) (ops : List Instr), s.cfg.legal = true → s.winState = .capturing → s.trigOut = true →
    s.pollCount = 0 → Instr.reset ∉ ops → pollsIn ops ≤ s.cfg.capturePolls → execAll ops s = .next t →
    t.trigRssi = s.trigRssi ∧ t.openUs = s.openUs ∧ everyIn keepsProducer ops s = true ∧
    ∃ calls events, t.calls = s.calls ++ calls ∧ t.events = s.events ++ events ∧ Call.readRssi ∉ calls ∧
      (pollsIn ops < s.cfg.capturePolls →
        t.winState = .capturing ∧ t.trigOut = true ∧ t.pollCount = pollsIn ops ∧
          events.filter Event.isWindowClosed = [] ∧ calls.filter Call.isWritePin = []) ∧
      (pollsIn ops = s.cfg.capturePolls →
        t.winState = .idle ∧ t.trigOut = false ∧ t.pollCount = 0 ∧
          calls.filter Call.isWritePin = [.writePin (.trig s.cfg.trigPin) false] ∧
          ∃ elapsed, events.filter Event.isWindowClosed = [.windowClosed elapsed s.trigRssi])) ∧
  (∀ (s : State) (polls : List (Word × Byte)), ∃ t, execAll (polls.map fun p => .poll p.1 p.2) s = .next t)

/-- The close is unconditional (R128): no operation but POLL and RESET changes a register of the window, whatever it
finds, and a POLL in a window leaves Capturing exactly when its count, modulo the counter's width (log 3), reaches
`CAPTURE_POLLS`. -/
def Obligations.OnlyThePollCountClosesAWindow : Prop :=
  (∀ (i : Instr) (s t : State), i.name ≠ .poll → i.name ≠ .reset → exec i s = .next t →
    t.winState = s.winState ∧ t.pollCount = s.pollCount ∧ t.trigRssi = s.trigRssi ∧ t.openUs = s.openUs ∧
      t.trigOut = s.trigOut) ∧
  (∀ (now : Word) (rssi : Byte) (s : State), s.winState = .capturing →
    ∃ t, exec (.poll now rssi) s = .next t ∧
      (t.winState = .idle ↔ (s.pollCount + 1) % 2 ^ s.cfg.pollCntBits = s.cfg.capturePolls))

/-- HBEAT: it appends its event and changes nothing else (R129; the event's fields are the spec's decision D18). -/
def Obligations.HeartbeatReportsTheWindow : Prop :=
  ∀ (now : Word) (s : State), ∃ triggered : Bool,
    exec (.hbeat now) s = .next { s with events := s.events ++ [.heartbeat now triggered] } ∧
    (triggered = true ↔ s.winState = .capturing)

/-! ## The classifier (42_classifier.md) -/

/-- CLASSIFY: for every legal configuration the tag is Short exactly in the short band, Long exactly in the long band,
both ends included, Invalid elsewhere; `active` follows; nothing else of the block changes (R141, R142; inclusive ends
are the spec's decision D10, the output D20). -/
def Obligations.ClassifyTagsByTheBands : Prop :=
  ∀ (w : Word) (s : State), s.cfg.legal = true → ∃ (tag : Tag) (active : Bool),
    exec (.classify w) s = .next { s with active := active, result := .classified ⟨tag, w.toNat⟩ } ∧
    (tag = .short ↔ s.cfg.shortMinUs ≤ w.toNat ∧ w.toNat ≤ s.cfg.shortMaxUs) ∧
    (tag = .long ↔ s.cfg.longMinUs ≤ w.toNat ∧ w.toNat ≤ s.cfg.longMaxUs) ∧
    (active = true ↔ tag ≠ .invalid)

/-- IDLECHK: idle exactly when the modular gap exceeds the limit, strictly; `active` is then cleared and otherwise
kept; nothing else of the block changes (R146; the limit and the comparison are the spec's decisions D11, D39;
`TS_BITS` for 32 is log 3). -/
def Obligations.IdleCheckComparesTheGap : Prop :=
  ∀ (now : Word) (s : State), ∃ idle active : Bool,
    exec (.idlechk now) s = .next { s with active := active, result := .idleChecked idle } ∧
    (idle = true ↔ (s.cfg.idleLimitUs : Int) < ((now.toNat : Int) - s.lastEdgeUs) % 2 ^ s.cfg.tsBits) ∧
    (active = true ↔ s.active = true ∧ idle = false)

/-- Scenario 2 (R147): 700 microseconds is Invalid with the default bands, and a run in which every width is Invalid
keeps `active` at 0 and never gives a reading, under the premise of 44_pipeline.md R197, the spec's decision D46, on the
decoder at every state of the run in which a STEP is next. The run is any list of operations, in any order: the widths
EDGE stores (but for 0, which reads as an empty slot) and CLASSIFY is given are Invalid, and so is what the slot holds
and what the decoder has been fed at the start. -/
def Obligations.InvalidWidthsNeverGiveAReading : Prop :=
  classifyTag Config.default 700 = .invalid ∧
  ∀ (s : State) (ops : List Instr), s.active = false → s.onlyInvalidFed →
    (s.slotWidth ≠ 0 → classifyTag s.cfg s.slotWidth = .invalid) →
    (∀ p ∈ gather sampleStored ops s, p.widthUs = 0 ∨ classifyTag s.cfg p.widthUs = .invalid) →
    (∀ w, Instr.classify w ∈ ops → classifyTag s.cfg w.toNat = .invalid) →
    DecoderNeedsValidPulsesIn ops s →
    ∃ t, execAll ops s = .next t ∧ t.active = false ∧
      ∀ r, Event.reading r ∈ t.events → Event.reading r ∈ s.events

/-! ## The validator (43_validator.md) -/

/-- VALIDATE writes no state of the block and makes no call: only what it returns (R155, R156). It returns what a
function of the message, the bytes below `MSG_LEN`, gives: two states that agree there get the same answer, whatever
else they hold and whatever their parameters but the two least lengths. -/
def Obligations.ValidateIsAFunctionOfTheMessage : Prop :=
  (∀ s : State, exec .validate s = .next { s with result := .validated (validate s.cfg s.message) }) ∧
  (∀ s s' : State, s.cfg.minLen = s'.cfg.minLen → s.cfg.minLen1A2D = s'.cfg.minLen1A2D → s.msgLen = s'.msgLen →
    (∀ i, i < s.msgLen → Memory.read s.msg i = Memory.read s'.msg i) →
    validate s.cfg s.message = validate s'.cfg s'.message)

/-- `nibbleSum` over the half-open range is the sum of both nibbles of every byte in it; it is at most 240 for eight
bytes and at most 180 for six; for the bytes of the rule's example it is 64 (R157). -/
def Obligations.NibbleSumAddsBothNibbles : Prop :=
  (∀ (m : List Byte) (lo hi : Nat), lo ≤ hi → hi ≤ m.length →
    nibbleSum m lo hi = ∑ i ∈ Finset.Ico lo hi, ((m.getD i 0).toNat / 16 + (m.getD i 0).toNat % 16)) ∧
  (∀ m : List Byte, nibbleSum m 0 8 ≤ 240 ∧ nibbleSum m 0 6 ≤ 180) ∧
  nibbleSum [0x1A, 0x2D, 0x10, 0x72, 0x30, 0x14, 0x10, 0xC7] 0 8 = 64

/-- The sensor type, the first two bytes with the lower index more significant, selects the checksum: `0x1A2D` one,
`0xEA4C` the other, from any message long enough for it; any other type gives no reading; a reading holds the type
(R159, R160). -/
def Obligations.SensorTypeSelectsTheChecksum : Prop :=
  ∀ (cfg : Config) (m : List Byte),
    (9 ≤ m.length → cfg.minLen ≤ m.length → cfg.minLen1A2D ≤ m.length →
      (m.getD 0 0).toNat * 256 + (m.getD 1 0).toNat = 0x1A2D →
      ((validate cfg m).reading?.isSome = true ↔ checksum1A2D m = true)) ∧
    (8 ≤ m.length → cfg.minLen ≤ m.length → (m.getD 0 0).toNat * 256 + (m.getD 1 0).toNat = 0xEA4C →
      ((validate cfg m).reading?.isSome = true ↔ checksumEA4C m = true)) ∧
    ((m.getD 0 0).toNat * 256 + (m.getD 1 0).toNat ≠ 0x1A2D →
      (m.getD 0 0).toNat * 256 + (m.getD 1 0).toNat ≠ 0xEA4C → (validate cfg m).reading? = none) ∧
    (∀ r, (validate cfg m).reading? = some r →
      r.sensorType.toNat = (m.getD 0 0).toNat * 256 + (m.getD 1 0).toNat)

/-- The checksum of type `0x1A2D`: byte 8 is the nibble sum of bytes 0 to 7 less 10; the sum is at least 26 and at most
240, so nothing is lost by the mask (R161). -/
def Obligations.Checksum1A2DComparesByteEight : Prop :=
  ∀ m : List Byte, 9 ≤ m.length → (m.getD 0 0).toNat = 0x1A → (m.getD 1 0).toNat = 0x2D →
    26 ≤ nibbleSum m 0 8 ∧ nibbleSum m 0 8 ≤ 240 ∧
    (checksum1A2D m = true ↔ (m.getD 8 0).toNat = nibbleSum m 0 8 - 10)

/-- The checksum of type `0xEA4C`: with `s` the nibble sum of bytes 0 to 5 plus the low nibble of byte 6 less 10, a
number from 30 to 185, byte 6 as a whole is `s`'s low nibble moved up and byte 7 as a whole its high nibble (R162). -/
def Obligations.ChecksumEA4CComparesWholeBytes : Prop :=
  ∀ m : List Byte, 8 ≤ m.length → (m.getD 0 0).toNat = 0xEA → (m.getD 1 0).toNat = 0x4C →
    ∃ s : Nat, s + 10 = nibbleSum m 0 6 + (m.getD 6 0).toNat % 16 ∧ 30 ≤ s ∧ s ≤ 185 ∧
      (checksumEA4C m = true ↔ s % 16 * 16 = (m.getD 6 0).toNat ∧ s / 16 = (m.getD 7 0).toNat)

/-- Consequences of that formula as written: an accepted `0xEA4C` message has byte 6's low nibble 0, byte 7 at most 15,
and never a negative temperature (R163, derived by the spec from R162 and R166; log 17). -/
def Obligations.AcceptedEA4CIsNeverNegative : Prop :=
  ∀ (cfg : Config) (m : List Byte) (r : DecodedReading), validate cfg m = .accepted r → r.sensorType = 0xEA4C →
    (byteAt m 6).toNat % 16 = 0 ∧ (byteAt m 7).toNat ≤ 15 ∧ 0 ≤ r.temperatureTenths.toInt

/-- Battery, channel and rolling code of an accepted message (R167, R169, R170). -/
def Obligations.BatteryChannelAndRollingCode : Prop :=
  ∀ (cfg : Config) (m : List Byte) (r : DecodedReading), validate cfg m = .accepted r →
    (r.batteryOk = true ↔ (byteAt m 4).getLsbD 2 = false ∧ (byteAt m 4).getLsbD 3 = false) ∧
    r.channel.toNat = (byteAt m 2).toNat / 16 ∧
    r.rollingCode.toNat = (byteAt m 3).toNat % 16 * 16 + (byteAt m 3).toNat / 16

/-- Temperature and humidity of an accepted message: three digits, negated if bit 3 of byte 6 is set, the 16 bits
losing nothing; two digits for type `0x1A2D`, the 8 bits losing nothing, and 0 for the other type (R165, R166, R168;
the widths and the unchecked digits are the spec's decisions D27, D28). -/
def Obligations.TemperatureAndHumidity : Prop :=
  ∀ (cfg : Config) (m : List Byte) (r : DecodedReading), validate cfg m = .accepted r →
    (∀ magnitude : Nat,
      magnitude = ((byteAt m 5).toNat / 16 * 10 + (byteAt m 5).toNat % 16) * 10 + (byteAt m 4).toNat / 16 →
      r.temperatureTenths.toInt = if (byteAt m 6).getLsbD 3 then -(magnitude : Int) else magnitude) ∧
    (r.sensorType = 0x1A2D → r.humidityPercent.toNat = (byteAt m 7).toNat % 16 * 10 + (byteAt m 6).toNat / 16) ∧
    (r.sensorType = 0xEA4C → r.humidityPercent = 0)

/-- Every well-formed `0x1A2D` buffer is accepted, with these battery, channel and rolling-code fields, and acceptance
depends on nothing else (R174). Least lengths set above the rule's 9 ask for as many bytes. -/
def Obligations.WellFormed1A2DBuffersAreAccepted : Prop :=
  ∀ (cfg : Config) (b : List Byte), 9 ≤ b.length → cfg.minLen ≤ b.length → cfg.minLen1A2D ≤ b.length →
    (b.getD 8 0).toNat = (nibbleSum b 0 8 - 10) % 256 →
    (b.getD 0 0).toNat * 256 + (b.getD 1 0).toNat = 0x1A2D →
    ∃ r, validate cfg b = .accepted r ∧
      r.channel.toNat = (b.getD 2 0).toNat / 16 ∧
      r.rollingCode.toNat = (b.getD 3 0).toNat % 16 * 16 + (b.getD 3 0).toNat / 16 ∧
      (r.batteryOk = true ↔ (b.getD 4 0).getLsbD 2 = false ∧ (b.getD 4 0).getLsbD 3 = false)

/-- An unknown type is rejected with no reading, whatever the message's length, as a checksum failure is; once the
length check has passed only the first two bytes are looked at (R164). -/
def Obligations.UnknownTypesAreRejected : Prop :=
  ∀ (cfg : Config) (m : List Byte), sensorType m ≠ 0x1A2D → sensorType m ≠ 0xEA4C →
    (validate cfg m).reading? = none ∧
    ∀ m' : List Byte, 8 ≤ m.length → cfg.minLen ≤ m.length → 8 ≤ m'.length → cfg.minLen ≤ m'.length →
      byteAt m' 0 = byteAt m 0 → byteAt m' 1 = byteAt m 1 → validate cfg m' = validate cfg m

/-- A message shorter than 8 bytes or than `MIN_LEN`, and one of type `0x1A2D` shorter than 9 bytes or than
`MIN_LEN_1A2D`, gives no reading, whatever the parameters (R158, 00_scope.md R11; that it is rejected and does not fault
is the spec's decision D23; the parameters beside the rule's numbers are log 28). -/
def Obligations.ShortMessagesAreRejected : Prop :=
  ∀ (cfg : Config) (m : List Byte),
    (m.length < 8 ∨ m.length < cfg.minLen → validate cfg m = .rejected .tooShort) ∧
    (m.length < 9 ∨ m.length < cfg.minLen1A2D → sensorType m = 0x1A2D → validate cfg m = .rejected .tooShort)

/-- Every single-bit flip of bytes 0 to 8 of an accepted `0x1A2D` message is rejected; flips of two bits can cancel, as
in the rule's example (R175, derived by the spec). -/
def Obligations.SingleBitFlipsAreRejected : Prop :=
  (∀ (cfg : Config) (m : List Byte) (r : DecodedReading) (i k : Nat),
    validate cfg m = .accepted r → r.sensorType = 0x1A2D → i < 9 → k < 8 →
    (validate cfg (flipBit m i k)).reading? = none) ∧
  (∃ r, validate Config.default [0x1A, 0x2D, 0x01, 0x72, 0x30, 0x14, 0x10, 0xC7, 0x36] = .accepted r ∧
    r.channel = 0)

/-- Bytes the validator does not read: index 9 and above for type `0x1A2D`, 8 and above for type `0xEA4C` (R177,
derived by the spec); both messages as long as the parameters ask for. -/
def Obligations.BytesBeyondTheTypeAreNotRead : Prop :=
  ∀ (cfg : Config) (m m' : List Byte), cfg.minLen ≤ m.length → cfg.minLen ≤ m'.length →
    (sensorType m = 0x1A2D → 9 ≤ m.length → cfg.minLen1A2D ≤ m.length → cfg.minLen1A2D ≤ m'.length →
      m'.take 9 = m.take 9 → validate cfg m' = validate cfg m) ∧
    (sensorType m = 0xEA4C → 8 ≤ m.length → m'.take 8 = m.take 8 → validate cfg m' = validate cfg m)

/-- Failure is silent (R172): every way to fail is the same `None`, and in STEP a completed buffer that gives no reading
leaves events, flags, counters and every register as an answer `false` of the decoder would, but for the buffer itself
and the calls that fetched it. -/
def Obligations.RejectedBuffersAreSilent : Prop :=
  (∀ why : Reject, (Verdict.rejected why).reading? = none) ∧
  ∀ (now : Word) (s : State) (bytes : List Byte), Memory.wf s.msg = true →
    s.slotWidth ≠ 0 → s.decoder.answer = some bytes → bytes.length ≤ s.cfg.msgMax →
    (validate s.cfg bytes).reading? = none →
    ∃ t, exec (.step now) s = .next t ∧
      t = { s with
        slotWidth := 0, active := t.active, msg := t.msg, msgLen := t.msgLen, decoder := t.decoder
        calls := t.calls } ∧
      (t.active = true ↔ classifyTag s.cfg s.slotWidth ≠ .invalid)

/-! ## The pulse path (44_pipeline.md) -/

/-- STEP on an empty slot: the idle check only; the decoder is not fed (R191; the composition is the spec's decision
D31; `TS_BITS` for 32 is log 3). -/
def Obligations.StepOnAnEmptySlotChecksIdle : Prop :=
  ∀ (now : Word) (s : State), s.slotWidth = 0 → ∃ active : Bool,
    exec (.step now) s = .next { s with
      active := active, calls := s.calls ++ [.enterCriticalSection, .exitCriticalSection] } ∧
    (active = true ↔ s.active = true ∧
      ((now.toNat : Int) - s.lastEdgeUs) % 2 ^ s.cfg.tsBits ≤ s.cfg.idleLimitUs)

/-- STEP on a sample the decoder takes without completing a message: drained, classified and fed, nothing else (R191;
D31; the calls in the order of the rule's lines, log 22). -/
def Obligations.StepFeedsTheDecoder : Prop :=
  ∀ (now : Word) (s : State), s.slotWidth ≠ 0 → s.decoder.answer = none → ∃ active : Bool,
    exec (.step now) s = .next { s with
      slotWidth := 0, active := active, decoder := s.decoder.advance
      calls := s.calls ++ [.enterCriticalSection, .exitCriticalSection, .feed s.slotWidth] } ∧
    (active = true ↔ classifyTag s.cfg s.slotWidth ≠ .invalid)

/-- STEP on a sample that completes a message: the buffer is filled, the message validated, the reading emitted if
there is one, and the decoder reset either way (R191, R194; D30, D31; the calls in the order of the rule's lines,
log 22). -/
def Obligations.StepTakesACompletedMessage : Prop :=
  ∀ (now : Word) (s : State) (bytes : List Byte), Memory.wf s.msg = true → s.slotWidth ≠ 0 →
    s.decoder.answer = some bytes → bytes.length ≤ s.cfg.msgMax → ∃ (active : Bool) (msg : Memory),
    exec (.step now) s = .next { s with
      slotWidth := 0, active := active, decoder := s.decoder.advance, msg := msg, msgLen := bytes.length
      events := s.events ++ ((validate s.cfg bytes).reading?.map Event.reading).toList
      calls := s.calls ++ [.enterCriticalSection, .exitCriticalSection, .feed s.slotWidth, .getData,
        .decoderReset] } ∧
    (active = true ↔ classifyTag s.cfg s.slotWidth ≠ .invalid) ∧
    (∀ a, Memory.read msg a = if a < bytes.length then bytes.getD a 0 else Memory.read s.msg a)

/-- A message longer than `MSG_MAX` is refused (20_memory.md R50; the capacity and the refusal are the spec's decision
D22); nothing else is: every operation completes on every state whose decoder's next answer fits. -/
def Obligations.OnlyTooLongAMessageIsRefused : Prop :=
  (∀ (now : Word) (s : State) (bytes : List Byte), s.slotWidth ≠ 0 → s.decoder.answer = some bytes →
    s.cfg.msgMax < bytes.length → exec (.step now) s = .refused (.messageTooLong bytes.length)) ∧
  (∀ (i : Instr) (s : State), s.answerFits → ∃ t, exec i s = .next t)

/-- Every drained width is fed, raw, whatever its tag, and the tag changes `active` and nothing else (R192): of two
states that differ in their bands only, STEP makes the same calls and leaves the same state, `active` and the bands
apart. -/
def Obligations.EveryDrainedWidthIsFed : Prop :=
  (∀ (now : Word) (s t : State), s.slotWidth ≠ 0 → exec (.step now) s = .next t →
    ∃ before after, t.calls = s.calls ++ before ++ [.feed s.slotWidth] ++ after) ∧
  (∀ (now : Word) (s t : State) (a b c d : Nat), s.slotWidth ≠ 0 → exec (.step now) s = .next t →
    ∃ active, exec (.step now)
        { s with cfg := { s.cfg with shortMinUs := a, shortMaxUs := b, longMinUs := c, longMaxUs := d } } =
      .next { t with
        cfg := { t.cfg with shortMinUs := a, shortMaxUs := b, longMinUs := c, longMaxUs := d }
        active := active })

/-- A `Reading` is emitted if and only if `feed` returned true in this STEP and VALIDATE returned a reading for the
buffer `getData` returned; it is that reading, and one buffer gives at most one (R193). No other operation emits a
`Reading`. -/
def Obligations.ReadingsComeFromAcceptedBuffers : Prop :=
  ∀ (i : Instr) (s t : State), Memory.wf s.msg = true → i ≠ .reset → exec i s = .next t →
    ∃ new, t.events = s.events ++ new ∧ new.length ≤ 1 ∧
      ∀ r, Event.reading r ∈ new ↔
        (∃ now, i = .step now) ∧ s.slotWidth ≠ 0 ∧
          ∃ bytes, s.decoder.answer = some bytes ∧ (validate s.cfg bytes).reading? = some r

/-- The data model's rule on readings (10_state.md R39), operation by operation: every `Reading` that one adds is the one
VALIDATE returns for the message the buffer then holds, which is at least 8 bytes long and whose type-specific checksum
matches. Of the hypothesis only the buffer's canonical form is used. -/
def Obligations.ReadingsAreFullyValidated : Prop :=
  ∀ (i : Instr) (s t : State), s.inv = true → i ≠ .reset → exec i s = .next t →
    ∃ new, t.events = s.events ++ new ∧ ∀ r, Event.reading r ∈ new →
      validate t.cfg t.message = .accepted r ∧ 8 ≤ t.message.length ∧
        ((sensorType t.message = 0x1A2D ∧ checksum1A2D t.message = true) ∨
          (sensorType t.message = 0xEA4C ∧ checksumEA4C t.message = true))

/-- The pulse path does not depend on the window: STEP from the same state with other window registers does the same
(R195; the spec's decision D45). -/
def Obligations.StepIgnoresTheWindow : Prop :=
  ∀ (now : Word) (s t : State) (w : WinState) (count : Nat) (rssi : Byte) (opened : Nat) (out : Bool),
    exec (.step now) s = .next t →
    exec (.step now)
        { s with winState := w, pollCount := count, trigRssi := rssi, openUs := opened, trigOut := out } =
      .next { t with winState := w, pollCount := count, trigRssi := rssi, openUs := opened, trigOut := out }

/-- NOP changes nothing (R198; the operation is the spec's own, D2). -/
def Obligations.NopChangesNothing : Prop := ∀ s : State, exec .nop s = .next s

/-! ## Contexts, frames and faults (60_exceptions.md, 10_state.md) -/

/-- Who writes what (60_exceptions.md R216): the handler writes the producer's registers alone; the main loop never
writes `last_edge_us`; and a main-loop operation that changes the shared cell does so in a critical section. The
configuration is written by nobody (00_scope.md R11). -/
def Obligations.ContextsKeepToTheirState : Prop :=
  ∀ (i : Instr) (s t : State), exec i s = .next t →
    t.cfg = s.cfg ∧
    (i.agent = .isr → t = { s with
      slotWidth := t.slotWidth, slotTime := t.slotTime, lastEdgeUs := t.lastEdgeUs, edgeCount := t.edgeCount }) ∧
    (i.agent = .main → t.lastEdgeUs = s.lastEdgeUs) ∧
    (i.agent = .main →
      (t.slotWidth ≠ s.slotWidth ∨ t.slotTime ≠ s.slotTime ∨ t.edgeCount ≠ s.edgeCount) →
      ∃ before after, t.calls = s.calls ++ before ++ [.enterCriticalSection, .exitCriticalSection] ++ after)

/-- Memory's frame, byte by byte: RESET leaves every byte 0; STEP changes only the bytes below the length of the
message it takes, and only when it takes one; no other operation changes a byte or the length (20_memory.md R50,
70_reset_and_hazards.md R235; D9, D22). -/
def Obligations.OnlyStepAndResetWriteTheBuffer : Prop :=
  ∀ (i : Instr) (s t : State), exec i s = .next t →
    ((∀ now, i ≠ .step now) → i ≠ .reset →
      t.msgLen = s.msgLen ∧ ∀ a, Memory.read t.msg a = Memory.read s.msg a) ∧
    ((∃ now, i = .step now) → (s.slotWidth = 0 ∨ s.decoder.answer = none) →
      t.msgLen = s.msgLen ∧ ∀ a, Memory.read t.msg a = Memory.read s.msg a) ∧
    (∀ now bytes, i = .step now → s.slotWidth ≠ 0 → s.decoder.answer = some bytes →
      ∀ a, bytes.length ≤ a → Memory.read t.msg a = Memory.read s.msg a) ∧
    (i = .reset → t.msgLen = 0 ∧ ∀ a, Memory.read t.msg a = 0)

/-- The output is append-only between two RESETs and no operation reads it: with other events before, an operation does
the same and appends the same (10_state.md R37; that RESET empties it is the spec's decision D9). -/
def Obligations.EventsAreAppendOnly : Prop :=
  ∀ (i : Instr) (s t : State) (earlier : List Event), i ≠ .reset → exec i s = .next t →
    ∃ new, t.events = s.events ++ new ∧
      exec i { s with events := earlier } = .next { t with events := earlier ++ new }

/-- The decoder is reset at no other point than a STEP whose `feed` returned true, and there once, accepted or not
(44_pipeline.md R194; the spec's decisions D30, D42). -/
def Obligations.DecoderIsResetAfterACompletedMessage : Prop :=
  ∀ (i : Instr) (s t : State), i ≠ .reset → exec i s = .next t →
    ∃ made, t.calls = s.calls ++ made ∧
      made.count .decoderReset =
        if (i.name = .step ∧ s.slotWidth ≠ 0 ∧ s.decoder.answer ≠ none) then 1 else 0

/-! ## Reset, the invariant and the host (70_reset_and_hazards.md) -/

/-- RESET from any state: every element of the state record at its reset value, the trigger pin written 0, no
`WindowClosed`, the decoder not called (R235, 10_state.md R45; the values are the spec's decision D9). The
configuration, the input, the oracle and the last result stay (the model's choice, log 21). That the log of calls begins
anew with exactly RESET's own calls is the model's choice (log 10), and their order is the model's (log 22). -/
def Obligations.ResetGivesTheResetState : Prop :=
  (∀ s : State, exec .reset s = .next { State.reset with
    cfg := s.cfg, inbox := s.inbox, decoder := s.decoder, result := s.result
    calls := [.enterCriticalSection, .exitCriticalSection, .writePin (.trig s.cfg.trigPin) false] }) ∧
  State.reset.slotWidth = 0 ∧ State.reset.slotTime = 0 ∧ State.reset.edgeCount = 0 ∧ State.reset.lastEdgeUs = 0 ∧
  State.reset.winState = .idle ∧ State.reset.pollCount = 0 ∧ State.reset.trigRssi = 0 ∧ State.reset.openUs = 0 ∧
  State.reset.trigOut = false ∧ State.reset.active = false ∧ (∀ a, Memory.read State.reset.msg a = 0) ∧
  State.reset.msgLen = 0 ∧ State.reset.events = [] ∧
  State.reset.calls = [.enterCriticalSection, .exitCriticalSection, .writePin (.trig none) false]

/-- The reset state satisfies the invariant (R236). -/
def Obligations.ResetSatisfiesTheInvariant : Prop := State.reset.inv = true

/-- Every step keeps the invariant (R236, derived by the spec): a legal configuration, the trigger line raised exactly
while a window is open, the poll count 0 in Idle and below `CAPTURE_POLLS` in a window, the message no longer than
`MSG_MAX`, every register within its width (10_state.md R20; the widths as parameters are log 3), the buffer in
canonical form. -/
def Obligations.EveryStepKeepsTheInvariant : Prop :=
  ∀ s t : State, s.inv = true → step s = .next t →
    t.inv = true ∧ t.cfg = s.cfg ∧
    (t.trigOut = true ↔ t.winState = .capturing) ∧
    (t.winState = .idle → t.pollCount = 0) ∧
    (t.winState = .capturing → t.pollCount < t.cfg.capturePolls) ∧
    t.msgLen ≤ t.cfg.msgMax ∧ Memory.wf t.msg = true ∧
    t.slotWidth < 2 ^ t.cfg.tsBits ∧ t.slotTime < 2 ^ t.cfg.tsBits ∧ t.lastEdgeUs < 2 ^ t.cfg.tsBits ∧
    t.openUs < 2 ^ t.cfg.tsBits ∧ t.edgeCount < 2 ^ t.cfg.edgeCntBits ∧ t.pollCount < 2 ^ t.cfg.pollCntBits

/-- The directives (30_encoding.md R88; the spec's own, D2): `.msg` makes the bytes given the message, `.decoder done`
makes them the decoder's next answer, and each changes nothing else of the block; a message longer than `MSG_MAX` is
refused (log 24); where other answers wait, the new one comes first (log 9). Without `.decoder` the decoder of a listing
answers false, and again once the scripted answer is used up. -/
def Obligations.DirectivesSetUpTheEnvironment : Prop :=
  (∀ (s : State) (bytes : List Byte), Memory.wf s.msg = true → bytes.length ≤ s.cfg.msgMax →
    ∃ t, directive (.msg bytes) s = .next t ∧ t.message = bytes ∧ t = { s with msg := t.msg, msgLen := t.msgLen }) ∧
  (∀ (s : State) (bytes : List Byte), s.cfg.msgMax < bytes.length →
    directive (.msg bytes) s = .refused (.messageTooLong bytes.length)) ∧
  (∀ (s : State) (bytes : List Byte), ∃ t, directive (.decoderDone bytes) s = .next t ∧
    t.decoder.answer = some bytes ∧ t = { s with decoder := t.decoder }) ∧
  (∀ (s : State) (bytes : List Byte), s.withListingDecoder.decoder.answer = none ∧
    ∃ t, directive (.decoderDone bytes) s.withListingDecoder = .next t ∧
      t.decoder.advance = s.withListingDecoder.decoder) ∧
  (∀ (i : Instr) (s t : State), s.decoder = s.withListingDecoder.decoder → exec i s = .next t →
    t.decoder = s.decoder)

/-- Boot attaches the edge interrupt last, after RESET, so that every element of the state record is at its reset value
before an EDGE can run; each call has its operands, `RADIO_HZ` among them (R240, 00_scope.md R8, R11; the order is the
spec's decision D38; the names of the pin modes and of the handler are log 29). -/
def Obligations.BootAttachesTheInterruptLast : Prop :=
  ∀ s : State, s.cfg.legal = true → ∃ (t u : State), boot s = .next t ∧ exec .reset s = .next u ∧
    t = { u with calls := t.calls } ∧
    t.calls = [.setFrequency s.cfg.radioHz, .setReceiveMode, .setPinMode (.demod s.cfg.demodPin) .input,
        .setPinMode (.trig s.cfg.trigPin) .output, .writePin (.trig s.cfg.trigPin) false] ++
      u.calls ++ [.attachEdgeInterrupt (.demod s.cfg.demodPin) .producer]
end

