-- ==== Sys2Proof/Laws/Decode.lean ====
section
/-! SUPPORT. The fields of a packed event word, and a word as the packing of its fields (30_encoding.md R81). -/

namespace Sys2Proof

theorem EventWord.getLsbD_pack (op : BitVec 8) (a : Word) (b : Byte) (i : Nat) :
    (EventWord.pack op a b).getLsbD i =
      if i < 8 then b.getLsbD i else if i < 40 then a.getLsbD (i - 8) else op.getLsbD (i - 40) := by
  have h : (EventWord.pack op a b).getLsbD i =
      (if i < 8 then b.getLsbD i else (op ++ a).getLsbD (i - 8)) := by
    simpa [EventWord.pack, Bool.cond_eq_ite] using BitVec.getLsbD_append (x := op ++ a) (y := b) (i := i)
  rw [h, BitVec.getLsbD_append]
  split
  · rfl
  · by_cases h40 : i < 40 <;> simp [h40, show (i - 8 < 32) ↔ i < 40 by omega, show i - 8 - 32 = i - 40 by omega]

theorem EventWord.op_pack (op : BitVec 8) (a : Word) (b : Byte) : EventWord.op (EventWord.pack op a b) = op := by
  apply BitVec.eq_of_getLsbD_eq
  intro i hi
  rw [EventWord.op, BitVec.getLsbD_extractLsb', EventWord.getLsbD_pack]
  simp [hi, show ¬ 40 + i < 8 by omega]

theorem EventWord.fieldA_pack (op : BitVec 8) (a : Word) (b : Byte) :
    EventWord.fieldA (EventWord.pack op a b) = a := by
  apply BitVec.eq_of_getLsbD_eq
  intro i hi
  rw [EventWord.fieldA, BitVec.getLsbD_extractLsb', EventWord.getLsbD_pack]
  simp [hi, show 8 + i < 40 by omega]

theorem EventWord.fieldB_pack (op : BitVec 8) (a : Word) (b : Byte) :
    EventWord.fieldB (EventWord.pack op a b) = b := by
  apply BitVec.eq_of_getLsbD_eq
  intro i hi
  rw [EventWord.fieldB, BitVec.getLsbD_extractLsb', EventWord.getLsbD_pack]
  simp [hi]

theorem EventWord.pack_fields (w : EventWord) :
    EventWord.pack (EventWord.op w) (EventWord.fieldA w) (EventWord.fieldB w) = w := by
  apply BitVec.eq_of_getLsbD_eq
  intro i hi
  rw [EventWord.getLsbD_pack]
  simp only [EventWord.op, EventWord.fieldA, EventWord.fieldB, BitVec.getLsbD_extractLsb']
  split
  · simp [*]
  · split
    · rw [show 8 + (i - 8) = i by omega]; simp; omega
    · rw [show 40 + (i - 40) = i by omega]; simp; omega

end Sys2Proof
end

