-- ==== Sys2Proof/Laws/Memory.lean ====
section
/-! SUPPORT. The laws of the message buffer: read after write, every operation keeps the canonical form and the index
space, and what a filled buffer reads as. -/

namespace Sys2Proof.Machine

theorem Memory.read_write_same (m : Memory) (a : Nat) (v : Byte) (h : Memory.wfFrom 0 m = true) :
    Memory.read (Memory.write m a v) a = v := by
  suffices key : ∀ lo, Memory.wfFrom lo m = true → Memory.read (Memory.write m a v) a = v from key 0 h
  clear h
  have absent : ∀ (m : Memory) (lo : Nat), Memory.wfFrom lo m = true → a < lo →
      Memory.read m a = Memory.unlisted := by
    intro m
    induction m with
    | nil => intros; rfl
    | cons c m ih =>
      obtain ⟨b, w⟩ := c
      intro lo hwf ha
      simp only [Memory.wfFrom, Bool.and_eq_true, decide_eq_true_eq] at hwf
      have hne : a ≠ b := by omega
      simp only [Memory.read, if_neg hne]
      exact ih (b + 1) hwf.2 (by omega)
  induction m with
  | nil =>
    intro lo _
    by_cases hv : v = Memory.unlisted <;> simp [Memory.write, Memory.read, hv]
  | cons c m ih =>
    obtain ⟨b, w⟩ := c
    intro lo hwf
    simp only [Memory.wfFrom, Bool.and_eq_true, decide_eq_true_eq] at hwf
    by_cases hlt : a < b
    · have hne : a ≠ b := by omega
      by_cases hv : v = Memory.unlisted
      · simp only [Memory.write, if_pos hlt, if_pos hv, Memory.read, if_neg hne]
        rw [hv]; exact absent m (b + 1) hwf.2 (by omega)
      · simp [Memory.write, hlt, hv, Memory.read]
    · by_cases heq : a = b
      · by_cases hv : v = Memory.unlisted
        · simp only [Memory.write, if_neg hlt, if_pos heq, if_pos hv]
          rw [hv]; exact absent m (b + 1) hwf.2 (by omega)
        · simp [Memory.write, heq, hv, Memory.read]
      · simp only [Memory.write, if_neg hlt, if_neg heq, Memory.read]
        exact ih (b + 1) hwf.2

theorem Memory.read_write_other (m : Memory) (a c : Nat) (v : Byte) (h : c ≠ a) :
    Memory.read (Memory.write m a v) c = Memory.read m c := by
  induction m with
  | nil => by_cases hv : v = Memory.unlisted <;> simp [Memory.write, Memory.read, hv, h]
  | cons e m ih =>
    obtain ⟨b, w⟩ := e
    by_cases hlt : a < b
    · by_cases hv : v = Memory.unlisted <;> simp [Memory.write, hlt, hv, Memory.read, h]
    · by_cases heq : a = b
      · subst heq
        by_cases hv : v = Memory.unlisted <;> simp [Memory.write, hv, Memory.read, h]
      · simp only [Memory.write, if_neg hlt, if_neg heq, Memory.read, ih]

theorem Memory.wfFrom_mono {m : Memory} {lo lo' : Nat} (hle : lo' ≤ lo) (h : Memory.wfFrom lo m = true) :
    Memory.wfFrom lo' m = true := by
  cases m with
  | nil => rfl
  | cons c m =>
    simp only [Memory.wfFrom, Bool.and_eq_true, decide_eq_true_eq] at h ⊢
    exact ⟨⟨by omega, h.1.2⟩, h.2⟩

theorem Memory.write_wfFrom (m : Memory) (lo a : Nat) (v : Byte) (hlo : lo ≤ a)
    (h : Memory.wfFrom lo m = true) : Memory.wfFrom lo (Memory.write m a v) = true := by
  induction m generalizing lo with
  | nil => by_cases hv : v = Memory.unlisted <;> simp [Memory.write, Memory.wfFrom, hv, hlo]
  | cons e m ih =>
    obtain ⟨b, w⟩ := e
    have h' := h
    simp only [Memory.wfFrom, Bool.and_eq_true, decide_eq_true_eq] at h'
    by_cases hlt : a < b
    · by_cases hv : v = Memory.unlisted
      · simpa [Memory.write, hlt, hv] using h
      · simp only [Memory.write, if_pos hlt, if_neg hv, Memory.wfFrom, Bool.and_eq_true, decide_eq_true_eq]
        exact ⟨⟨hlo, by simpa using hv⟩, ⟨by omega, h'.1.2⟩, h'.2⟩
    · by_cases heq : a = b
      · by_cases hv : v = Memory.unlisted
        · simp only [Memory.write, if_neg hlt, if_pos heq, if_pos hv]
          exact Memory.wfFrom_mono (by omega) h'.2
        · simp only [Memory.write, if_neg hlt, if_pos heq, if_neg hv, Memory.wfFrom, Bool.and_eq_true,
            decide_eq_true_eq]
          exact ⟨⟨hlo, by simpa using hv⟩, heq ▸ h'.2⟩
      · simp only [Memory.write, if_neg hlt, if_neg heq, Memory.wfFrom, Bool.and_eq_true, decide_eq_true_eq]
        exact ⟨h'.1, ih (b + 1) (by omega) h'.2⟩

theorem Memory.writeBytes_wf (m : Memory) (base : Nat) (vs : List Byte) (h : Memory.wf m = true) :
    Memory.wf (Memory.writeBytes m base vs) = true := by
  induction vs generalizing m base with
  | nil => exact h
  | cons v vs ih => exact ih _ _ (Memory.write_wfFrom m 0 base v (Nat.zero_le _) h)

theorem Memory.write_within (m : Memory) (bound a : Nat) (v : Byte) (ha : a < bound)
    (h : Memory.within bound m = true) : Memory.within bound (Memory.write m a v) = true := by
  induction m with
  | nil => by_cases hv : v = Memory.unlisted <;> simp [Memory.write, Memory.within, hv, ha]
  | cons e m ih =>
    obtain ⟨b, w⟩ := e
    have h' := h
    simp only [Memory.within, List.all_cons, Bool.and_eq_true, decide_eq_true_eq] at h'
    by_cases hlt : a < b
    · by_cases hv : v = Memory.unlisted
      · simpa [Memory.write, hlt, hv] using h
      · simp only [Memory.write, if_pos hlt, if_neg hv, Memory.within, List.all_cons, Bool.and_eq_true,
          decide_eq_true_eq]
        exact ⟨ha, h'.1, h'.2⟩
    · by_cases heq : a = b
      · by_cases hv : v = Memory.unlisted
        · simpa only [Memory.write, if_neg hlt, if_pos heq, if_pos hv, Memory.within] using h'.2
        · simp only [Memory.write, if_neg hlt, if_pos heq, if_neg hv, Memory.within, List.all_cons,
            Bool.and_eq_true, decide_eq_true_eq]
          exact ⟨ha, h'.2⟩
      · simp only [Memory.write, if_neg hlt, if_neg heq, Memory.within, List.all_cons, Bool.and_eq_true,
          decide_eq_true_eq]
        exact ⟨h'.1, ih h'.2⟩

theorem Memory.writeBytes_within (m : Memory) (bound base : Nat) (vs : List Byte) (hb : base + vs.length ≤ bound)
    (h : Memory.within bound m = true) : Memory.within bound (Memory.writeBytes m base vs) = true := by
  induction vs generalizing m base with
  | nil => exact h
  | cons v vs ih =>
    simp only [List.length_cons] at hb
    exact ih _ _ (by omega) (Memory.write_within m bound base v (by omega) h)

theorem Memory.read_writeBytes_outside (m : Memory) (base a : Nat) (vs : List Byte)
    (h : a < base ∨ base + vs.length ≤ a) :
    Memory.read (Memory.writeBytes m base vs) a = Memory.read m a := by
  induction vs generalizing m base with
  | nil => rfl
  | cons v vs ih =>
    simp only [List.length_cons] at h
    rw [Memory.writeBytes, ih _ _ (by omega), Memory.read_write_other _ _ _ _ (by omega)]

theorem Memory.read_writeBytes_inside (m : Memory) (base i : Nat) (vs : List Byte) (hi : i < vs.length)
    (h : Memory.wf m = true) : Memory.read (Memory.writeBytes m base vs) (base + i) = vs[i] := by
  induction vs generalizing m base i with
  | nil => simp at hi
  | cons v vs ih =>
    have hw := Memory.write_wfFrom m 0 base v (Nat.zero_le _) h
    cases i with
    | zero =>
      rw [Memory.writeBytes, Memory.read_writeBytes_outside _ _ _ _ (by omega)]
      simpa using Memory.read_write_same m base v h
    | succ i =>
      have := ih (Memory.write m base v) (base + 1) i (by simpa using hi) hw
      rw [Memory.writeBytes, show base + (i + 1) = base + 1 + i by omega, this]
      simp

/-- The message of a filled buffer is the bytes it was filled with (44_pipeline.md R191). -/
theorem State.message_setMessage (s : State) (bytes : List Byte) (h : Memory.wf s.msg = true) :
    (s.setMessage bytes).message = bytes := by
  apply List.ext_getElem
  · simp [State.message, State.setMessage]
  · intro i h1 h2
    simp only [State.message, State.setMessage, List.getElem_map, List.getElem_range]
    simpa using Memory.read_writeBytes_inside s.msg 0 i bytes h2 h

theorem State.length_message (s : State) : s.message.length = s.msgLen := by
  simp [State.message]

end Sys2Proof.Machine
end

