-- ==== Sys2Proof/Laws/State.lean ====
section
/-! SUPPORT. One lemma per field per update of State, so that no proof unfolds an update. -/

namespace Sys2Proof.Machine

/-! ### A logged call -/

@[simp] theorem State.call_slotWidth (s : State) (cs : List Call) : (s.call cs).slotWidth = s.slotWidth := rfl
@[simp] theorem State.call_slotTime (s : State) (cs : List Call) : (s.call cs).slotTime = s.slotTime := rfl
@[simp] theorem State.call_edgeCount (s : State) (cs : List Call) : (s.call cs).edgeCount = s.edgeCount := rfl
@[simp] theorem State.call_lastEdgeUs (s : State) (cs : List Call) : (s.call cs).lastEdgeUs = s.lastEdgeUs := rfl
@[simp] theorem State.call_winState (s : State) (cs : List Call) : (s.call cs).winState = s.winState := rfl
@[simp] theorem State.call_pollCount (s : State) (cs : List Call) : (s.call cs).pollCount = s.pollCount := rfl
@[simp] theorem State.call_trigRssi (s : State) (cs : List Call) : (s.call cs).trigRssi = s.trigRssi := rfl
@[simp] theorem State.call_openUs (s : State) (cs : List Call) : (s.call cs).openUs = s.openUs := rfl
@[simp] theorem State.call_trigOut (s : State) (cs : List Call) : (s.call cs).trigOut = s.trigOut := rfl
@[simp] theorem State.call_active (s : State) (cs : List Call) : (s.call cs).active = s.active := rfl
@[simp] theorem State.call_msg (s : State) (cs : List Call) : (s.call cs).msg = s.msg := rfl
@[simp] theorem State.call_msgLen (s : State) (cs : List Call) : (s.call cs).msgLen = s.msgLen := rfl
@[simp] theorem State.call_events (s : State) (cs : List Call) : (s.call cs).events = s.events := rfl
@[simp] theorem State.call_cfg (s : State) (cs : List Call) : (s.call cs).cfg = s.cfg := rfl
@[simp] theorem State.call_inbox (s : State) (cs : List Call) : (s.call cs).inbox = s.inbox := rfl
@[simp] theorem State.call_decoder (s : State) (cs : List Call) : (s.call cs).decoder = s.decoder := rfl
@[simp] theorem State.call_calls (s : State) (cs : List Call) : (s.call cs).calls = s.calls ++ cs := rfl
@[simp] theorem State.call_result (s : State) (cs : List Call) : (s.call cs).result = s.result := rfl

/-! ### A written trigger pin -/

@[simp] theorem State.writeTrig_slotWidth (s : State) (level : Bool) : (s.writeTrig level).slotWidth = s.slotWidth := rfl
@[simp] theorem State.writeTrig_slotTime (s : State) (level : Bool) : (s.writeTrig level).slotTime = s.slotTime := rfl
@[simp] theorem State.writeTrig_edgeCount (s : State) (level : Bool) : (s.writeTrig level).edgeCount = s.edgeCount := rfl
@[simp] theorem State.writeTrig_lastEdgeUs (s : State) (level : Bool) : (s.writeTrig level).lastEdgeUs = s.lastEdgeUs := rfl
@[simp] theorem State.writeTrig_winState (s : State) (level : Bool) : (s.writeTrig level).winState = s.winState := rfl
@[simp] theorem State.writeTrig_pollCount (s : State) (level : Bool) : (s.writeTrig level).pollCount = s.pollCount := rfl
@[simp] theorem State.writeTrig_trigRssi (s : State) (level : Bool) : (s.writeTrig level).trigRssi = s.trigRssi := rfl
@[simp] theorem State.writeTrig_openUs (s : State) (level : Bool) : (s.writeTrig level).openUs = s.openUs := rfl
@[simp] theorem State.writeTrig_trigOut (s : State) (level : Bool) : (s.writeTrig level).trigOut = s.trigOut := rfl
@[simp] theorem State.writeTrig_active (s : State) (level : Bool) : (s.writeTrig level).active = s.active := rfl
@[simp] theorem State.writeTrig_msg (s : State) (level : Bool) : (s.writeTrig level).msg = s.msg := rfl
@[simp] theorem State.writeTrig_msgLen (s : State) (level : Bool) : (s.writeTrig level).msgLen = s.msgLen := rfl
@[simp] theorem State.writeTrig_events (s : State) (level : Bool) : (s.writeTrig level).events = s.events := rfl
@[simp] theorem State.writeTrig_cfg (s : State) (level : Bool) : (s.writeTrig level).cfg = s.cfg := rfl
@[simp] theorem State.writeTrig_inbox (s : State) (level : Bool) : (s.writeTrig level).inbox = s.inbox := rfl
@[simp] theorem State.writeTrig_decoder (s : State) (level : Bool) : (s.writeTrig level).decoder = s.decoder := rfl
@[simp] theorem State.writeTrig_calls (s : State) (level : Bool) : (s.writeTrig level).calls = s.calls ++ [.writePin (.trig s.cfg.trigPin) level] := rfl
@[simp] theorem State.writeTrig_result (s : State) (level : Bool) : (s.writeTrig level).result = s.result := rfl

/-! ### An emitted event -/

@[simp] theorem State.emit_slotWidth (s : State) (e : Event) : (s.emit e).slotWidth = s.slotWidth := rfl
@[simp] theorem State.emit_slotTime (s : State) (e : Event) : (s.emit e).slotTime = s.slotTime := rfl
@[simp] theorem State.emit_edgeCount (s : State) (e : Event) : (s.emit e).edgeCount = s.edgeCount := rfl
@[simp] theorem State.emit_lastEdgeUs (s : State) (e : Event) : (s.emit e).lastEdgeUs = s.lastEdgeUs := rfl
@[simp] theorem State.emit_winState (s : State) (e : Event) : (s.emit e).winState = s.winState := rfl
@[simp] theorem State.emit_pollCount (s : State) (e : Event) : (s.emit e).pollCount = s.pollCount := rfl
@[simp] theorem State.emit_trigRssi (s : State) (e : Event) : (s.emit e).trigRssi = s.trigRssi := rfl
@[simp] theorem State.emit_openUs (s : State) (e : Event) : (s.emit e).openUs = s.openUs := rfl
@[simp] theorem State.emit_trigOut (s : State) (e : Event) : (s.emit e).trigOut = s.trigOut := rfl
@[simp] theorem State.emit_active (s : State) (e : Event) : (s.emit e).active = s.active := rfl
@[simp] theorem State.emit_msg (s : State) (e : Event) : (s.emit e).msg = s.msg := rfl
@[simp] theorem State.emit_msgLen (s : State) (e : Event) : (s.emit e).msgLen = s.msgLen := rfl
@[simp] theorem State.emit_events (s : State) (e : Event) : (s.emit e).events = s.events ++ [e] := rfl
@[simp] theorem State.emit_cfg (s : State) (e : Event) : (s.emit e).cfg = s.cfg := rfl
@[simp] theorem State.emit_inbox (s : State) (e : Event) : (s.emit e).inbox = s.inbox := rfl
@[simp] theorem State.emit_decoder (s : State) (e : Event) : (s.emit e).decoder = s.decoder := rfl
@[simp] theorem State.emit_calls (s : State) (e : Event) : (s.emit e).calls = s.calls := rfl
@[simp] theorem State.emit_result (s : State) (e : Event) : (s.emit e).result = s.result := rfl

/-! ### A filled message buffer -/

@[simp] theorem State.setMessage_slotWidth (s : State) (bytes : List Byte) : (s.setMessage bytes).slotWidth = s.slotWidth := rfl
@[simp] theorem State.setMessage_slotTime (s : State) (bytes : List Byte) : (s.setMessage bytes).slotTime = s.slotTime := rfl
@[simp] theorem State.setMessage_edgeCount (s : State) (bytes : List Byte) : (s.setMessage bytes).edgeCount = s.edgeCount := rfl
@[simp] theorem State.setMessage_lastEdgeUs (s : State) (bytes : List Byte) : (s.setMessage bytes).lastEdgeUs = s.lastEdgeUs := rfl
@[simp] theorem State.setMessage_winState (s : State) (bytes : List Byte) : (s.setMessage bytes).winState = s.winState := rfl
@[simp] theorem State.setMessage_pollCount (s : State) (bytes : List Byte) : (s.setMessage bytes).pollCount = s.pollCount := rfl
@[simp] theorem State.setMessage_trigRssi (s : State) (bytes : List Byte) : (s.setMessage bytes).trigRssi = s.trigRssi := rfl
@[simp] theorem State.setMessage_openUs (s : State) (bytes : List Byte) : (s.setMessage bytes).openUs = s.openUs := rfl
@[simp] theorem State.setMessage_trigOut (s : State) (bytes : List Byte) : (s.setMessage bytes).trigOut = s.trigOut := rfl
@[simp] theorem State.setMessage_active (s : State) (bytes : List Byte) : (s.setMessage bytes).active = s.active := rfl
@[simp] theorem State.setMessage_msg (s : State) (bytes : List Byte) : (s.setMessage bytes).msg = Memory.writeBytes s.msg 0 bytes := rfl
@[simp] theorem State.setMessage_msgLen (s : State) (bytes : List Byte) : (s.setMessage bytes).msgLen = bytes.length := rfl
@[simp] theorem State.setMessage_events (s : State) (bytes : List Byte) : (s.setMessage bytes).events = s.events := rfl
@[simp] theorem State.setMessage_cfg (s : State) (bytes : List Byte) : (s.setMessage bytes).cfg = s.cfg := rfl
@[simp] theorem State.setMessage_inbox (s : State) (bytes : List Byte) : (s.setMessage bytes).inbox = s.inbox := rfl
@[simp] theorem State.setMessage_decoder (s : State) (bytes : List Byte) : (s.setMessage bytes).decoder = s.decoder := rfl
@[simp] theorem State.setMessage_calls (s : State) (bytes : List Byte) : (s.setMessage bytes).calls = s.calls := rfl
@[simp] theorem State.setMessage_result (s : State) (bytes : List Byte) : (s.setMessage bytes).result = s.result := rfl

/-! ### A width fed to the decoder -/

@[simp] theorem State.feed_slotWidth (s : State) (w : Nat) : (s.feed w).slotWidth = s.slotWidth := rfl
@[simp] theorem State.feed_slotTime (s : State) (w : Nat) : (s.feed w).slotTime = s.slotTime := rfl
@[simp] theorem State.feed_edgeCount (s : State) (w : Nat) : (s.feed w).edgeCount = s.edgeCount := rfl
@[simp] theorem State.feed_lastEdgeUs (s : State) (w : Nat) : (s.feed w).lastEdgeUs = s.lastEdgeUs := rfl
@[simp] theorem State.feed_winState (s : State) (w : Nat) : (s.feed w).winState = s.winState := rfl
@[simp] theorem State.feed_pollCount (s : State) (w : Nat) : (s.feed w).pollCount = s.pollCount := rfl
@[simp] theorem State.feed_trigRssi (s : State) (w : Nat) : (s.feed w).trigRssi = s.trigRssi := rfl
@[simp] theorem State.feed_openUs (s : State) (w : Nat) : (s.feed w).openUs = s.openUs := rfl
@[simp] theorem State.feed_trigOut (s : State) (w : Nat) : (s.feed w).trigOut = s.trigOut := rfl
@[simp] theorem State.feed_active (s : State) (w : Nat) : (s.feed w).active = s.active := rfl
@[simp] theorem State.feed_msg (s : State) (w : Nat) : (s.feed w).msg = s.msg := rfl
@[simp] theorem State.feed_msgLen (s : State) (w : Nat) : (s.feed w).msgLen = s.msgLen := rfl
@[simp] theorem State.feed_events (s : State) (w : Nat) : (s.feed w).events = s.events := rfl
@[simp] theorem State.feed_cfg (s : State) (w : Nat) : (s.feed w).cfg = s.cfg := rfl
@[simp] theorem State.feed_inbox (s : State) (w : Nat) : (s.feed w).inbox = s.inbox := rfl
@[simp] theorem State.feed_decoder (s : State) (w : Nat) : (s.feed w).decoder = s.decoder.advance := rfl
@[simp] theorem State.feed_calls (s : State) (w : Nat) : (s.feed w).calls = s.calls ++ [.feed w] := rfl
@[simp] theorem State.feed_result (s : State) (w : Nat) : (s.feed w).result = s.result := rfl

/-! ### A cleared slot -/

@[simp] theorem State.clearSlot_slotWidth (s : State) : (s.clearSlot).slotWidth = 0 := rfl
@[simp] theorem State.clearSlot_slotTime (s : State) : (s.clearSlot).slotTime = s.slotTime := rfl
@[simp] theorem State.clearSlot_edgeCount (s : State) : (s.clearSlot).edgeCount = s.edgeCount := rfl
@[simp] theorem State.clearSlot_lastEdgeUs (s : State) : (s.clearSlot).lastEdgeUs = s.lastEdgeUs := rfl
@[simp] theorem State.clearSlot_winState (s : State) : (s.clearSlot).winState = s.winState := rfl
@[simp] theorem State.clearSlot_pollCount (s : State) : (s.clearSlot).pollCount = s.pollCount := rfl
@[simp] theorem State.clearSlot_trigRssi (s : State) : (s.clearSlot).trigRssi = s.trigRssi := rfl
@[simp] theorem State.clearSlot_openUs (s : State) : (s.clearSlot).openUs = s.openUs := rfl
@[simp] theorem State.clearSlot_trigOut (s : State) : (s.clearSlot).trigOut = s.trigOut := rfl
@[simp] theorem State.clearSlot_active (s : State) : (s.clearSlot).active = s.active := rfl
@[simp] theorem State.clearSlot_msg (s : State) : (s.clearSlot).msg = s.msg := rfl
@[simp] theorem State.clearSlot_msgLen (s : State) : (s.clearSlot).msgLen = s.msgLen := rfl
@[simp] theorem State.clearSlot_events (s : State) : (s.clearSlot).events = s.events := rfl
@[simp] theorem State.clearSlot_cfg (s : State) : (s.clearSlot).cfg = s.cfg := rfl
@[simp] theorem State.clearSlot_inbox (s : State) : (s.clearSlot).inbox = s.inbox := rfl
@[simp] theorem State.clearSlot_decoder (s : State) : (s.clearSlot).decoder = s.decoder := rfl
@[simp] theorem State.clearSlot_calls (s : State) : (s.clearSlot).calls = s.calls ++ [.enterCriticalSection] ++ [.exitCriticalSection] := rfl
@[simp] theorem State.clearSlot_result (s : State) : (s.clearSlot).result = s.result := rfl

/-! ### ProducerClear -/

@[simp] theorem State.producerClear_slotWidth (s : State) : (s.producerClear).slotWidth = 0 := rfl
@[simp] theorem State.producerClear_slotTime (s : State) : (s.producerClear).slotTime = 0 := rfl
@[simp] theorem State.producerClear_edgeCount (s : State) : (s.producerClear).edgeCount = 0 := rfl
@[simp] theorem State.producerClear_lastEdgeUs (s : State) : (s.producerClear).lastEdgeUs = s.lastEdgeUs := rfl
@[simp] theorem State.producerClear_winState (s : State) : (s.producerClear).winState = s.winState := rfl
@[simp] theorem State.producerClear_pollCount (s : State) : (s.producerClear).pollCount = s.pollCount := rfl
@[simp] theorem State.producerClear_trigRssi (s : State) : (s.producerClear).trigRssi = s.trigRssi := rfl
@[simp] theorem State.producerClear_openUs (s : State) : (s.producerClear).openUs = s.openUs := rfl
@[simp] theorem State.producerClear_trigOut (s : State) : (s.producerClear).trigOut = s.trigOut := rfl
@[simp] theorem State.producerClear_active (s : State) : (s.producerClear).active = s.active := rfl
@[simp] theorem State.producerClear_msg (s : State) : (s.producerClear).msg = s.msg := rfl
@[simp] theorem State.producerClear_msgLen (s : State) : (s.producerClear).msgLen = s.msgLen := rfl
@[simp] theorem State.producerClear_events (s : State) : (s.producerClear).events = s.events := rfl
@[simp] theorem State.producerClear_cfg (s : State) : (s.producerClear).cfg = s.cfg := rfl
@[simp] theorem State.producerClear_inbox (s : State) : (s.producerClear).inbox = s.inbox := rfl
@[simp] theorem State.producerClear_decoder (s : State) : (s.producerClear).decoder = s.decoder := rfl
@[simp] theorem State.producerClear_calls (s : State) : (s.producerClear).calls = s.calls ++ [.enterCriticalSection] ++ [.exitCriticalSection] := rfl
@[simp] theorem State.producerClear_result (s : State) : (s.producerClear).result = s.result := rfl

/-! ### A tag noted on the liveness output -/

@[simp] theorem State.noteTag_slotWidth (s : State) (tag : Tag) : (s.noteTag tag).slotWidth = s.slotWidth := rfl
@[simp] theorem State.noteTag_slotTime (s : State) (tag : Tag) : (s.noteTag tag).slotTime = s.slotTime := rfl
@[simp] theorem State.noteTag_edgeCount (s : State) (tag : Tag) : (s.noteTag tag).edgeCount = s.edgeCount := rfl
@[simp] theorem State.noteTag_lastEdgeUs (s : State) (tag : Tag) : (s.noteTag tag).lastEdgeUs = s.lastEdgeUs := rfl
@[simp] theorem State.noteTag_winState (s : State) (tag : Tag) : (s.noteTag tag).winState = s.winState := rfl
@[simp] theorem State.noteTag_pollCount (s : State) (tag : Tag) : (s.noteTag tag).pollCount = s.pollCount := rfl
@[simp] theorem State.noteTag_trigRssi (s : State) (tag : Tag) : (s.noteTag tag).trigRssi = s.trigRssi := rfl
@[simp] theorem State.noteTag_openUs (s : State) (tag : Tag) : (s.noteTag tag).openUs = s.openUs := rfl
@[simp] theorem State.noteTag_trigOut (s : State) (tag : Tag) : (s.noteTag tag).trigOut = s.trigOut := rfl
@[simp] theorem State.noteTag_active (s : State) (tag : Tag) : (s.noteTag tag).active = (tag != .invalid) := rfl
@[simp] theorem State.noteTag_msg (s : State) (tag : Tag) : (s.noteTag tag).msg = s.msg := rfl
@[simp] theorem State.noteTag_msgLen (s : State) (tag : Tag) : (s.noteTag tag).msgLen = s.msgLen := rfl
@[simp] theorem State.noteTag_events (s : State) (tag : Tag) : (s.noteTag tag).events = s.events := rfl
@[simp] theorem State.noteTag_cfg (s : State) (tag : Tag) : (s.noteTag tag).cfg = s.cfg := rfl
@[simp] theorem State.noteTag_inbox (s : State) (tag : Tag) : (s.noteTag tag).inbox = s.inbox := rfl
@[simp] theorem State.noteTag_decoder (s : State) (tag : Tag) : (s.noteTag tag).decoder = s.decoder := rfl
@[simp] theorem State.noteTag_calls (s : State) (tag : Tag) : (s.noteTag tag).calls = s.calls := rfl
@[simp] theorem State.noteTag_result (s : State) (tag : Tag) : (s.noteTag tag).result = s.result := rfl

/-! ### An idle check noted on the liveness output -/

@[simp] theorem State.noteIdle_slotWidth (s : State) (idle : Bool) : (s.noteIdle idle).slotWidth = s.slotWidth := rfl
@[simp] theorem State.noteIdle_slotTime (s : State) (idle : Bool) : (s.noteIdle idle).slotTime = s.slotTime := rfl
@[simp] theorem State.noteIdle_edgeCount (s : State) (idle : Bool) : (s.noteIdle idle).edgeCount = s.edgeCount := rfl
@[simp] theorem State.noteIdle_lastEdgeUs (s : State) (idle : Bool) : (s.noteIdle idle).lastEdgeUs = s.lastEdgeUs := rfl
@[simp] theorem State.noteIdle_winState (s : State) (idle : Bool) : (s.noteIdle idle).winState = s.winState := rfl
@[simp] theorem State.noteIdle_pollCount (s : State) (idle : Bool) : (s.noteIdle idle).pollCount = s.pollCount := rfl
@[simp] theorem State.noteIdle_trigRssi (s : State) (idle : Bool) : (s.noteIdle idle).trigRssi = s.trigRssi := rfl
@[simp] theorem State.noteIdle_openUs (s : State) (idle : Bool) : (s.noteIdle idle).openUs = s.openUs := rfl
@[simp] theorem State.noteIdle_trigOut (s : State) (idle : Bool) : (s.noteIdle idle).trigOut = s.trigOut := rfl
@[simp] theorem State.noteIdle_active (s : State) (idle : Bool) : (s.noteIdle idle).active = if idle then false else s.active := rfl
@[simp] theorem State.noteIdle_msg (s : State) (idle : Bool) : (s.noteIdle idle).msg = s.msg := rfl
@[simp] theorem State.noteIdle_msgLen (s : State) (idle : Bool) : (s.noteIdle idle).msgLen = s.msgLen := rfl
@[simp] theorem State.noteIdle_events (s : State) (idle : Bool) : (s.noteIdle idle).events = s.events := rfl
@[simp] theorem State.noteIdle_cfg (s : State) (idle : Bool) : (s.noteIdle idle).cfg = s.cfg := rfl
@[simp] theorem State.noteIdle_inbox (s : State) (idle : Bool) : (s.noteIdle idle).inbox = s.inbox := rfl
@[simp] theorem State.noteIdle_decoder (s : State) (idle : Bool) : (s.noteIdle idle).decoder = s.decoder := rfl
@[simp] theorem State.noteIdle_calls (s : State) (idle : Bool) : (s.noteIdle idle).calls = s.calls := rfl
@[simp] theorem State.noteIdle_result (s : State) (idle : Bool) : (s.noteIdle idle).result = s.result := rfl

/-! ### A presented event word -/

@[simp] theorem State.present_slotWidth (s : State) (w : EventWord) : (s.present w).slotWidth = s.slotWidth := rfl
@[simp] theorem State.present_slotTime (s : State) (w : EventWord) : (s.present w).slotTime = s.slotTime := rfl
@[simp] theorem State.present_edgeCount (s : State) (w : EventWord) : (s.present w).edgeCount = s.edgeCount := rfl
@[simp] theorem State.present_lastEdgeUs (s : State) (w : EventWord) : (s.present w).lastEdgeUs = s.lastEdgeUs := rfl
@[simp] theorem State.present_winState (s : State) (w : EventWord) : (s.present w).winState = s.winState := rfl
@[simp] theorem State.present_pollCount (s : State) (w : EventWord) : (s.present w).pollCount = s.pollCount := rfl
@[simp] theorem State.present_trigRssi (s : State) (w : EventWord) : (s.present w).trigRssi = s.trigRssi := rfl
@[simp] theorem State.present_openUs (s : State) (w : EventWord) : (s.present w).openUs = s.openUs := rfl
@[simp] theorem State.present_trigOut (s : State) (w : EventWord) : (s.present w).trigOut = s.trigOut := rfl
@[simp] theorem State.present_active (s : State) (w : EventWord) : (s.present w).active = s.active := rfl
@[simp] theorem State.present_msg (s : State) (w : EventWord) : (s.present w).msg = s.msg := rfl
@[simp] theorem State.present_msgLen (s : State) (w : EventWord) : (s.present w).msgLen = s.msgLen := rfl
@[simp] theorem State.present_events (s : State) (w : EventWord) : (s.present w).events = s.events := rfl
@[simp] theorem State.present_cfg (s : State) (w : EventWord) : (s.present w).cfg = s.cfg := rfl
@[simp] theorem State.present_inbox (s : State) (w : EventWord) : (s.present w).inbox = w :: s.inbox := rfl
@[simp] theorem State.present_decoder (s : State) (w : EventWord) : (s.present w).decoder = s.decoder := rfl
@[simp] theorem State.present_calls (s : State) (w : EventWord) : (s.present w).calls = s.calls := rfl
@[simp] theorem State.present_result (s : State) (w : EventWord) : (s.present w).result = s.result := rfl

end Sys2Proof.Machine
end

