-- ==== Sys2Proof/Laws/Ops.lean ====
section
/-! SUPPORT. One lemma per shared operation that says all it can do. -/

namespace Sys2Proof.Machine

/-- A drain returns a sample exactly when the width is not 0, and then the slot's contents. -/
theorem State.slotSample_eq_some_iff (s : State) (p : PulseSample) :
    s.slotSample = some p ↔ s.slotWidth ≠ 0 ∧ p = ⟨s.slotWidth, s.slotTime⟩ := by
  unfold State.slotSample
  split <;> rename_i h
  · simp [h]
  · constructor
    · rintro ⟨rfl⟩; exact ⟨h, rfl⟩
    · rintro ⟨-, rfl⟩; rfl

theorem State.slotSample_eq_none_iff (s : State) : s.slotSample = none ↔ s.slotWidth = 0 := by
  unfold State.slotSample
  split <;> simp_all

/-- Emitting a verdict appends at most one event. -/
theorem State.emitReading_eq (s : State) (v : Verdict) :
    s.emitReading v = { s with events := s.events ++ (v.reading?.map Event.reading).toList } := by
  unfold State.emitReading
  cases v <;> simp [Verdict.reading?, State.emit]

theorem State.capturing_iff (s : State) : s.capturing = true ↔ s.winState = .capturing := by
  simp [State.capturing]

theorem State.capturing_eq_false_iff (s : State) : s.capturing = false ↔ s.winState = .idle := by
  cases h : s.winState <;> simp [State.capturing, h]

theorem inBand_iff (lo hi w : Nat) : inBand lo hi w = true ↔ lo ≤ w ∧ w ≤ hi := by
  simp [inBand]

theorem strongEnough_iff (cfg : Config) (rssi : Byte) :
    strongEnough cfg rssi = true ↔ rssi.toNat ≤ cfg.rssiThreshold := by
  simp [strongEnough]

theorem lineIdle_iff (now : Word) (s : State) :
    lineIdle now s = true ↔ s.cfg.idleLimitUs < interval s.cfg now s.lastEdgeUs := by
  simp [lineIdle]

/-- The interval as an integer. -/
theorem interval_cast (cfg : Config) (now : Word) (earlier : Nat) :
    (interval cfg now earlier : Int) = ((now.toNat : Int) - earlier) % 2 ^ cfg.tsBits := by
  have h : (2 ^ cfg.tsBits : Int) ≠ 0 := by positivity
  rw [interval, Int.toNat_of_nonneg (Int.emod_nonneg _ h)]

/-- An interval fits `TS_BITS` bits. -/
theorem interval_lt (cfg : Config) (now : Word) (earlier : Nat) : interval cfg now earlier < 2 ^ cfg.tsBits := by
  have h := interval_cast cfg now earlier
  have := Int.emod_lt_of_pos ((now.toNat : Int) - earlier) (b := 2 ^ cfg.tsBits) (by positivity)
  rw [← h] at this
  exact_mod_cast this

/-- A held timestamp fits `TS_BITS` bits. -/
theorem stamp_lt (cfg : Config) (now : Word) : stamp cfg now < 2 ^ cfg.tsBits := Nat.mod_lt _ (by positivity)

/-- A counter fits its width. -/
theorem countUp_lt (bits count : Nat) : countUp bits count < 2 ^ bits := Nat.mod_lt _ (by positivity)

/-- With the default width a held timestamp is the whole operand. -/
theorem stamp_default (now : Word) : stamp Config.default now = now.toNat := Nat.mod_eq_of_lt now.isLt

/-- The closing poll's whole effect. -/
theorem closeWindow_eq (now : Word) (s : State) :
    closeWindow now s = { s with
      trigOut := false, winState := .idle, pollCount := 0
      calls := s.calls ++ [.writePin (.trig s.cfg.trigPin) false]
      events := s.events ++ [.windowClosed (interval s.cfg now s.openUs) s.trigRssi] } := rfl

/-- The opening poll's whole effect. -/
theorem openWindow_eq (now : Word) (rssi : Byte) (s : State) :
    openWindow now rssi s = { s with
      winState := .capturing, trigOut := true, trigRssi := rssi, openUs := stamp s.cfg now, pollCount := 0
      slotWidth := 0, slotTime := 0, edgeCount := 0
      calls := s.calls ++ [.writePin (.trig s.cfg.trigPin) true] ++ [.enterCriticalSection] ++ [.exitCriticalSection] } := rfl

/-- What a poll while Capturing does, in its two cases. -/
theorem pollCapturing_cases (now : Word) (s : State) :
    (countUp s.cfg.pollCntBits s.pollCount = s.cfg.capturePolls ∧
        pollCapturing now s =
          closeWindow now { s with pollCount := countUp s.cfg.pollCntBits s.pollCount }) ∨
      (countUp s.cfg.pollCntBits s.pollCount ≠ s.cfg.capturePolls ∧
        pollCapturing now s = { s with pollCount := countUp s.cfg.pollCntBits s.pollCount }) := by
  unfold pollCapturing
  by_cases h : countUp s.cfg.pollCntBits s.pollCount = s.cfg.capturePolls
  · exact .inl ⟨h, by simp only [h, if_true]⟩
  · exact .inr ⟨h, by simp only [h, if_false]⟩

/-- What a poll while Idle does, in its two cases. -/
theorem pollIdle_cases (now : Word) (rssi : Byte) (s : State) :
    (strongEnough s.cfg rssi = true ∧ pollIdle now rssi s = openWindow now rssi (s.call [.readRssi])) ∨
      (strongEnough s.cfg rssi = false ∧ pollIdle now rssi s = s.call [.readRssi]) := by
  unfold pollIdle
  cases h : strongEnough s.cfg rssi
  · exact .inr ⟨rfl, by simp [h]⟩
  · exact .inl ⟨rfl, by simp [h]⟩

/-- Everything POLL can do, in its four cases. -/
theorem execPoll_cases (now : Word) (rssi : Byte) (s : State) :
    (s.winState = .capturing ∧ countUp s.cfg.pollCntBits s.pollCount = s.cfg.capturePolls ∧
      execPoll now rssi s =
        .next (closeWindow now { s with pollCount := countUp s.cfg.pollCntBits s.pollCount })) ∨
    (s.winState = .capturing ∧ countUp s.cfg.pollCntBits s.pollCount ≠ s.cfg.capturePolls ∧
      execPoll now rssi s = .next { s with pollCount := countUp s.cfg.pollCntBits s.pollCount }) ∨
    (s.winState = .idle ∧ rssi.toNat ≤ s.cfg.rssiThreshold ∧
      execPoll now rssi s = .next (openWindow now rssi (s.call [.readRssi]))) ∨
    (s.winState = .idle ∧ s.cfg.rssiThreshold < rssi.toNat ∧ execPoll now rssi s = .next (s.call [.readRssi])) := by
  unfold execPoll
  rcases Bool.eq_false_or_eq_true s.capturing with hc | hc
  · have hw := s.capturing_iff.1 hc
    rw [if_pos hc]
    rcases pollCapturing_cases now s with ⟨h, e⟩ | ⟨h, e⟩
    · exact .inl ⟨hw, h, by rw [e]⟩
    · exact .inr (.inl ⟨hw, h, by rw [e]⟩)
  · have hw := s.capturing_eq_false_iff.1 hc
    rw [if_neg (by simp [hc])]
    rcases pollIdle_cases now rssi s with ⟨h, e⟩ | ⟨h, e⟩
    · exact .inr (.inr (.inl ⟨hw, (strongEnough_iff _ _).1 h, by rw [e]⟩))
    · refine .inr (.inr (.inr ⟨hw, ?_, by rw [e]⟩))
      have := mt (strongEnough_iff s.cfg rssi).2 (by simp [h])
      omega

/-- CLASSIFY writes the liveness output and nothing else. -/
theorem classifyEffect_eq (w : Nat) (s : State) :
    classifyEffect w s = { s with active := classifyTag s.cfg w != .invalid } := rfl

/-- IDLECHK clears the liveness output or leaves it, and writes nothing else. -/
theorem idleEffect_eq (now : Word) (s : State) :
    idleEffect now s = { s with active := if lineIdle now s then false else s.active } := rfl

/-- What STEP does with a drained sample before the decoder's answer is looked at. -/
theorem forwardSample_eq (p : PulseSample) (s : State) :
    forwardSample p s = { s with
      slotWidth := 0, active := classifyTag s.cfg p.widthUs != .invalid, decoder := s.decoder.advance
      calls := s.calls ++ [.enterCriticalSection] ++ [.exitCriticalSection] ++ [.feed p.widthUs] } := rfl

/-- What STEP does with a completed message, `v` being what VALIDATE finds in it. -/
theorem takeMessage_eq (bytes : List Byte) (s : State) :
    takeMessage bytes s = { s with
      msg := Memory.writeBytes s.msg 0 bytes
      msgLen := bytes.length
      events := s.events ++ ((validate s.cfg (s.setMessage bytes).message).reading?.map Event.reading).toList
      calls := s.calls ++ [.getData] ++ [.decoderReset] } := by
  simp only [takeMessage, State.emitReading_eq]
  rfl

/-- Everything STEP can do: the idle check on an empty slot, a width the decoder takes without completing, a completed
message that fits, or a refusal of one that does not. -/
theorem execStep_cases (now : Word) (s : State) :
    (s.slotWidth = 0 ∧ execStep now s = .next (idleEffect now s.clearSlot)) ∨
    (s.slotWidth ≠ 0 ∧ s.decoder.answer = none ∧
      execStep now s = .next (forwardSample ⟨s.slotWidth, s.slotTime⟩ s)) ∨
    (∃ bytes, s.slotWidth ≠ 0 ∧ s.decoder.answer = some bytes ∧ bytes.length ≤ s.cfg.msgMax ∧
      execStep now s = .next (takeMessage bytes (forwardSample ⟨s.slotWidth, s.slotTime⟩ s))) ∨
    (∃ bytes, s.slotWidth ≠ 0 ∧ s.decoder.answer = some bytes ∧ s.cfg.msgMax < bytes.length ∧
      execStep now s = .refused (.messageTooLong bytes.length)) := by
  unfold execStep
  by_cases hw : s.slotWidth = 0
  · exact .inl ⟨hw, by rw [(s.slotSample_eq_none_iff).2 hw]⟩
  · have hs : s.slotSample = some ⟨s.slotWidth, s.slotTime⟩ := (s.slotSample_eq_some_iff _).2 ⟨hw, rfl⟩
    rw [hs]
    cases ha : s.decoder.answer with
    | none => exact .inr (.inl ⟨hw, rfl, rfl⟩)
    | some bytes =>
      by_cases hl : bytes.length ≤ s.cfg.msgMax
      · exact .inr (.inr (.inl ⟨bytes, hw, rfl, hl, by simp only [if_pos hl]⟩))
      · exact .inr (.inr (.inr ⟨bytes, hw, rfl, by omega, by simp only [if_neg hl]⟩))

/-- Everything `step` can do when a legal configuration is held. -/
theorem step_cases (s : State) (hc : s.cfg.legal = true) :
    (s.inbox = [] ∧ step s = .next s) ∨
    (∃ w rest e, s.inbox = w :: rest ∧ decode w = .error e ∧ step s = .refused (.reservedWord e)) ∨
    (∃ w rest i, s.inbox = w :: rest ∧ decode w = .ok i ∧
      ({ s with inbox := rest } : State).mayRun i = true ∧ step s = exec i { s with inbox := rest }) ∨
    (∃ w rest i, s.inbox = w :: rest ∧ decode w = .ok i ∧
      ({ s with inbox := rest } : State).mayRun i = false ∧ step s = .refused .illegalStart) := by
  unfold step State.nextEvent?
  rw [if_pos hc]
  cases hi : s.inbox with
  | nil => exact .inl ⟨rfl, rfl⟩
  | cons w rest =>
    cases hd : decode w with
    | error e => exact .inr (.inl ⟨w, rest, e, rfl, hd, by simp [hd]⟩)
    | ok i =>
      cases hm : ({ s with inbox := rest } : State).mayRun i with
      | true => exact .inr (.inr (.inl ⟨w, rest, i, rfl, hd, hm, by simp [hd, hm]⟩))
      | false => exact .inr (.inr (.inr ⟨w, rest, i, rfl, hd, hm, by simp [hd, hm]⟩))

end Sys2Proof.Machine
end

