-- ==== Sys2Proof/Laws/PerInstr.lean ====
section
/-! SUPPORT. The per-instruction family `FieldsOfWord`: the fields of an instruction's event word are its operation
code and its operands, unused fields 0 (30_encoding.md R82, R83). -/

namespace Sys2Proof.Laws.FieldsOfWord

/-- The operation code of the opcode map (30_encoding.md R83). -/
def opOf : Instr → BitVec 8
  | .nop => 0x00#8
  | .edge _ => 0x01#8
  | .drain => 0x02#8
  | .poll _ _ => 0x03#8
  | .hbeat _ => 0x04#8
  | .classify _ => 0x05#8
  | .idlechk _ => 0x06#8
  | .validate => 0x07#8
  | .step _ => 0x08#8
  | .reset => 0xFF#8

/-- What field `A` carries, 0 where the operation does not use it (30_encoding.md R82). -/
def operandA : Instr → Word
  | .nop => 0
  | .edge now => now
  | .drain => 0
  | .poll now _ => now
  | .hbeat now => now
  | .classify w => w
  | .idlechk now => now
  | .validate => 0
  | .step now => now
  | .reset => 0

/-- What field `B` carries, 0 where the operation does not use it (30_encoding.md R82). -/
def operandB : Instr → Byte
  | .nop => 0
  | .edge _ => 0
  | .drain => 0
  | .poll _ rssi => rssi
  | .hbeat _ => 0
  | .classify _ => 0
  | .idlechk _ => 0
  | .validate => 0
  | .step _ => 0
  | .reset => 0

/-- The three fields of the instruction's word. -/
def Statement (i : Instr) : Prop :=
  EventWord.op (encode i) = opOf i ∧ EventWord.fieldA (encode i) = operandA i ∧
    EventWord.fieldB (encode i) = operandB i

theorem ofPack (op : BitVec 8) (a : Word) (b : Byte) :
    EventWord.op (EventWord.pack op a b) = op ∧ EventWord.fieldA (EventWord.pack op a b) = a ∧
      EventWord.fieldB (EventWord.pack op a b) = b :=
  ⟨EventWord.op_pack op a b, EventWord.fieldA_pack op a b, EventWord.fieldB_pack op a b⟩

theorem nop : Statement .nop := ofPack _ _ _
theorem edge (now : Word) : Statement (.edge now) := ofPack _ _ _
theorem drain : Statement .drain := ofPack _ _ _
theorem poll (now : Word) (rssi : Byte) : Statement (.poll now rssi) := ofPack _ _ _
theorem hbeat (now : Word) : Statement (.hbeat now) := ofPack _ _ _
theorem classify (w : Word) : Statement (.classify w) := ofPack _ _ _
theorem idlechk (now : Word) : Statement (.idlechk now) := ofPack _ _ _
theorem validate : Statement .validate := ofPack _ _ _
theorem step (now : Word) : Statement (.step now) := ofPack _ _ _
theorem reset : Statement .reset := ofPack _ _ _

end Sys2Proof.Laws.FieldsOfWord
end

