-- ==== Sys2Proof/Laws/Runs.lean ====
section
/-! SUPPORT. The small lemmas of runs: one operation more, what is counted, and which operations leave what. -/

namespace Sys2Proof.Machine

theorem execAll_cons {i : Instr} {s t : State} (is : List Instr) (h : exec i s = .next t) :
    execAll (i :: is) s = execAll is t := by
  simp only [execAll, h]

theorem gather_cons {α : Type} (f : Instr → State → List α) {i : Instr} {s t : State} (is : List Instr)
    (h : exec i s = .next t) : gather f (i :: is) s = f i s ++ gather f is t := by
  simp only [gather, h]

theorem everyIn_cons (p : Instr → State → Bool) {i : Instr} {s t : State} (is : List Instr)
    (h : exec i s = .next t) : everyIn p (i :: is) s = (p i s && everyIn p is t) := by
  simp only [everyIn, h]

@[simp] theorem edgesIn_nil : edgesIn [] = 0 := rfl

theorem edgesIn_cons (i : Instr) (is : List Instr) :
    edgesIn (i :: is) = edgesIn is + if i.name = .edge then 1 else 0 := by
  simp [edgesIn, List.countP_cons]

@[simp] theorem pollsIn_nil : pollsIn [] = 0 := rfl

theorem pollsIn_cons (i : Instr) (is : List Instr) :
    pollsIn (i :: is) = pollsIn is + if i.name = .poll then 1 else 0 := by
  simp [pollsIn, List.countP_cons]

/-- A POLL runs ProducerClear exactly when it opens a window. -/
theorem clearsProducer_poll (now : Word) (rssi : Byte) (s : State) :
    clearsProducer (.poll now rssi) s = true ↔ s.winState = .idle ∧ rssi.toNat ≤ s.cfg.rssiThreshold := by
  simp [clearsProducer, strongEnough]

/-- No operation but POLL and RESET runs ProducerClear. -/
theorem keepsProducer_other (i : Instr) (s : State) (h : i.name ≠ .poll) (h' : i ≠ .reset) :
    keepsProducer i s = true := by
  cases i <;> first | rfl | exact absurd rfl h | exact absurd rfl h'

/-- An operation that leaves the slot completes, with the producer and the configuration as they were. -/
theorem leavesSlot_next (i : Instr) (s : State) (h : leavesSlot i s = true) :
    ∃ t, exec i s = .next t ∧ t.slotWidth = s.slotWidth ∧ t.slotTime = s.slotTime ∧ t.edgeCount = s.edgeCount ∧
      t.lastEdgeUs = s.lastEdgeUs ∧ t.cfg = s.cfg := by
  cases i with
  | poll now rssi =>
    rcases execPoll_cases now rssi s with ⟨-, -, e⟩ | ⟨-, -, e⟩ | ⟨hw, hr, -⟩ | ⟨-, -, e⟩
    · exact ⟨_, e, rfl, rfl, rfl, rfl, rfl⟩
    · exact ⟨_, e, rfl, rfl, rfl, rfl, rfl⟩
    · have hc := (clearsProducer_poll now rssi s).2 ⟨hw, hr⟩
      simp [leavesSlot, keepsProducer, hc] at h
    · exact ⟨_, e, rfl, rfl, rfl, rfl, rfl⟩
  | edge now => cases h
  | drain => cases h
  | step now => cases h
  | reset => cases h
  | _ => exact ⟨_, rfl, rfl, rfl, rfl, rfl, rfl⟩

end Sys2Proof.Machine
end

