-- ==== Sys2Proof/Laws/Validator.lean ====
section
/-! SUPPORT. Nibbles as quotient and remainder, their bounds (43_validator.md R157, R173), and what VALIDATE can
find. -/

namespace Sys2Proof.Machine

theorem highNibble_eq (b : Byte) : highNibble b = b.toNat / 16 := by
  simp [highNibble, Nat.shiftRight_eq_div_pow]

theorem lowNibble_eq (b : Byte) : lowNibble b = b.toNat % 16 := by
  have := Nat.and_two_pow_sub_one_eq_mod b.toNat 4
  simpa [lowNibble] using this

theorem highNibble_le (b : Byte) : highNibble b ≤ 15 := by
  have := b.isLt
  rw [highNibble_eq]
  omega

theorem lowNibble_le (b : Byte) : lowNibble b ≤ 15 := by
  rw [lowNibble_eq]
  omega

theorem nibbles_sum_le (l : List Byte) : (l.map fun b => highNibble b + lowNibble b).sum ≤ 30 * l.length := by
  induction l with
  | nil => simp
  | cons b l ih =>
    have := highNibble_le b
    have := lowNibble_le b
    simp only [List.map_cons, List.sum_cons, List.length_cons]
    omega

theorem temperatureMagnitude_le (m : List Byte) : temperatureMagnitude m ≤ 1665 := by
  have := highNibble_le (byteAt m 5)
  have := lowNibble_le (byteAt m 5)
  have := highNibble_le (byteAt m 4)
  unfold temperatureMagnitude
  omega

/-- A reading is the extraction of a message long enough, of a known type, whose checksum matches. -/
theorem validate_accepted {cfg : Config} {m : List Byte} {r : DecodedReading} (h : validate cfg m = .accepted r) :
    r = extractReading m ∧ leastLength cfg ≤ m.length ∧
      ((sensorType m = type1A2D ∧ leastLength1A2D cfg ≤ m.length ∧ checksum1A2D m = true) ∨
        (sensorType m = typeEA4C ∧ checksumEA4C m = true)) := by
  unfold validate at h
  split at h
  · cases h
  rename_i hlen
  split at h
  · rename_i ht
    split at h
    · cases h
    rename_i hlen9
    split at h
    · rename_i hc
      cases h
      exact ⟨rfl, by omega, .inl ⟨ht, by omega, hc⟩⟩
    · cases h
  · split at h
    · rename_i ht
      split at h
      · rename_i hc
        cases h
        exact ⟨rfl, by omega, .inr ⟨ht, hc⟩⟩
      · cases h
    · cases h

end Sys2Proof.Machine
end

