-- ==== Sys2Proof/Tests/Slice0.lean ====
section
/-! SUPPORT. Tests against the spec's vectors (95_test_vectors.md, named by their ids there) and words written out from
30_encoding.md, the checks' refusals, and for every obligation that has hypotheses a state and operands that meet
them. -/

namespace Sys2Proof.Tests

open Sys2Proof.Machine

/-! ## Small states -/

/-- The slot holds a sample just stored; the decoder answers false. -/
def withSample (width time : Nat) : State :=
  { State.reset with slotWidth := width, slotTime := time, lastEdgeUs := time, decoder := .scripted [] }

/-- The end of D-W3. -/
def windowOpen : State :=
  { State.reset with winState := .capturing, trigOut := true, trigRssi := 180, openUs := 1000 }

/-- A window one poll before its end, with `CAPTURE_POLLS = 3`. -/
def lastPoll : State :=
  { windowOpen with cfg := { Config.default with capturePolls := 3 }, pollCount := 2 }

/-- The buffer of D-V1. -/
def bytes1A2D : List Byte := [0x1A, 0x2D, 0x10, 0x72, 0x30, 0x14, 0x10, 0xC7, 0x36]

/-- The buffer of D-V7: that of D-V1 with a wrong checksum. -/
def badBytes : List Byte := [0x1A, 0x2D, 0x10, 0x72, 0x30, 0x14, 0x10, 0xC7, 0x37]

/-- The buffer of D-V13. -/
def bytesEA4C : List Byte := [0xEA, 0x4C, 0x20, 0x55, 0x70, 0x21, 0x40, 0x03]

/-- The reading of D-V1. -/
def reading1A2D : DecodedReading := ⟨0x1A2D, 1, 0x27, 143, 71, true⟩

/-- The reading of D-V13. -/
def readingEA4C : DecodedReading := ⟨0xEA4C, 2, 0x55, 217, 0, true⟩

/-- The start of D-S5, the decoder about to complete a message. -/
def completing (bytes : List Byte) : State :=
  { withSample 488 1488 with decoder := .scripted [some bytes] }

/-- The operation answers a next state of which `p` holds. -/
def after (i : Instr) (s : State) (p : State → Bool) : Bool :=
  match exec i s with
  | .next t => p t
  | .fault _ => false
  | .refused _ => false

/-- The step answers a next state of which `p` holds. -/
def afterStep (s : State) (p : State → Bool) : Bool :=
  match step s with
  | .next t => p t
  | .fault _ => false
  | .refused _ => false

/-- The word decodes to the instruction. -/
def decodesTo (w : EventWord) (i : Instr) : Bool :=
  match decode w with
  | .ok j => j == i
  | .error _ => false

/-- The word is refused for the reason. -/
def refusedAs (w : EventWord) (e : DecodeError) : Bool :=
  match decode w with
  | .ok _ => false
  | .error e' => e' == e

/-! ## Checks refuse ill-formed terms -/

theorem test_config_default_legal : Config.default.legal = true := by decide
/-- The short band reaches the long one. -/
theorem test_config_bands_refused : ({ Config.default with shortMaxUs := 850 } : Config).bandsOk = false := by decide
theorem test_config_polls_refused : ({ Config.default with capturePolls := 0 } : Config).pollsOk = false := by decide
theorem test_config_threshold_refused :
    ({ Config.default with rssiThreshold := 256 } : Config).thresholdOk = false := by decide
theorem test_config_idle_refused :
    ({ Config.default with idleLimitUs := 2 ^ 32 } : Config).idleOk = false := by decide
/-- Each of the four checks is part of legality. -/
theorem test_config_legal_refuses_each :
    ({ Config.default with shortMaxUs := 850 } : Config).legal = false ∧
    ({ Config.default with capturePolls := 2 ^ 32 } : Config).legal = false ∧
    ({ Config.default with rssiThreshold := 256 } : Config).legal = false ∧
    ({ Config.default with idleLimitUs := 2 ^ 32 } : Config).legal = false := by decide
/-- The widths and the lengths are parameters: any of them, within R12, is a block. -/
theorem test_config_widths_legal :
    ({ Config.default with
        tsBits := 16, edgeCntBits := 8, pollCntBits := 11, msgMax := 16, minLen := 10, minLen1A2D := 12 } :
          Config).legal = true ∧
    ({ Config.default with pollCntBits := 10 } : Config).legal = false := by decide
/-- POLL with one operand, and EDGE with a timestamp of 33 bits. -/
theorem test_line_arity_refused : (⟨.poll, [5000]⟩ : Line).arityOk = false ∧
    assemble ⟨.poll, [5000]⟩ = none := by decide
theorem test_line_range_refused : (⟨.edge, [2 ^ 32]⟩ : Line).rangeOk = false ∧
    (⟨.poll, [0, 256]⟩ : Line).rangeOk = false ∧ assemble ⟨.edge, [2 ^ 32]⟩ = none := by decide

/-! ## Words written out from the spec's encoding -/

theorem test_decode_nop : decodesTo 0x000000000000#48 .nop = true := by decide
theorem test_decode_edge : decodesTo 0x01000003E800#48 (.edge 1000) = true := by decide
theorem test_decode_edge_largest : decodesTo 0x01FFFFFFFF00#48 (.edge 4294967295) = true := by decide
theorem test_decode_drain : decodesTo 0x020000000000#48 .drain = true := by decide
theorem test_decode_poll : decodesTo 0x0300001388B4#48 (.poll 5000 180) = true := by decide
theorem test_decode_poll_rssi : decodesTo 0x0300000000FF#48 (.poll 0 255) = true := by decide
theorem test_decode_hbeat : decodesTo 0x040000138800#48 (.hbeat 5000) = true := by decide
theorem test_decode_classify : decodesTo 0x05000002BC00#48 (.classify 700) = true := by decide
theorem test_decode_idlechk : decodesTo 0x060000138800#48 (.idlechk 5000) = true := by decide
theorem test_decode_validate : decodesTo 0x070000000000#48 .validate = true := by decide
theorem test_decode_step : decodesTo 0x080000138800#48 (.step 5000) = true := by decide
theorem test_decode_reset : decodesTo 0xFF0000000000#48 .reset = true := by decide
/-- The fields of EDGE 1000 in binary: op 47:40, A 39:8, B 7:0. -/
theorem test_decode_edge_bits : decodesTo
    0b000000010000000000000000000000111110100000000000#48 (.edge 1000) = true := by decide
theorem test_decode_reserved :
    refusedAs 0x090000000000#48 .reservedOpcode = true ∧ refusedAs 0xFE0000000000#48 .reservedOpcode = true ∧
    refusedAs 0x010000000001#48 .nonzeroUnusedField = true ∧
    refusedAs 0x020000000100#48 .nonzeroUnusedField = true ∧
    refusedAs 0xFF0000000001#48 .nonzeroUnusedField = true := by decide
theorem test_encode_poll : encode (.poll 5000 180) = 0x0300001388B4#48 := by decide
theorem test_table_word : decodeTableWord 48 0x080000138800 = some (.step 5000) ∧
    decodeTableWord 48 0x0A0000000000 = none := by decide
theorem test_fetch_word : afterStep (State.reset.withFetchWord 48 0x01000003E800)
    (fun t => t.lastEdgeUs == 1000 && t.inbox == []) = true := by decide
/-- R87, R88. -/
theorem test_listing : assemble ⟨.loop, [0xF445A, 160]⟩ = some [.poll 0xF445A 160, .step 0xF445A] ∧
    assemble ⟨.take, []⟩ = some [.drain] ∧ listing (.hbeat 5000) = ⟨.hbeat, [5000]⟩ ∧
    LineName.text .classify = "CLASSIFY" := by decide
/-- R75, R76, R79. -/
theorem test_codes : WinState.capturing.code = 0b10#2 ∧ Tag.long.code = 0b10#2 ∧
    WinState.ofCode 0b01#2 = none ∧ Tag.ofCode 0b11#2 = none := by decide

/-! ## One step of each operation -/

theorem test_nop : after .nop windowOpen (· == windowOpen) = true := by decide

/-- D-P8: the clock wrapped between the edges. -/
theorem test_edge_wraps : after (.edge 0x000000E8) { State.reset with lastEdgeUs := 0xFFFFFF00 }
    (fun t => t.slotWidth == 488 && t.slotTime == 232 && t.lastEdgeUs == 232 && t.edgeCount == 1) = true := by decide
/-- D-P11: the counter wraps. -/
theorem test_edge_count_wraps : after (.edge 1488) { State.reset with edgeCount := 0xFFFFFFFF, lastEdgeUs := 1000 }
    (fun t => t.edgeCount == 0 && t.slotWidth == 488) = true := by decide

/-- D-P8 and D-P11 with timestamps of 16 bits and a counter of 8 (00_scope.md R11). -/
theorem test_narrow_widths : after (.edge 0x000100E8) { State.reset with
      lastEdgeUs := 0xFF00, edgeCount := 255, cfg := { Config.default with tsBits := 16, edgeCntBits := 8 } }
    (fun t => t.slotWidth == 488 && t.slotTime == 232 && t.lastEdgeUs == 232 && t.edgeCount == 0) = true := by decide

/-- D-P2. -/
theorem test_drain_takes : after .drain (withSample 488 1488)
    (fun t => t.result == .drained (some ⟨488, 1488⟩) && t.slotWidth == 0 && t.slotTime == 1488) = true := by decide
/-- D-P4. -/
theorem test_drain_empty : after .drain State.reset
    (fun t => t.result == .drained none && t.slotWidth == 0) = true := by decide

/-- D-W3, D-W1 and D-P12: equality opens, one above does not, the producer is cleared but for `last_edge_us`. -/
theorem test_poll_opens : after (.poll 1000 180) { withSample 488 900 with edgeCount := 7 }
    (fun t => t.winState == .capturing && t.trigOut && t.trigRssi == 180 && t.openUs == 1000 &&
      t.slotWidth == 0 && t.slotTime == 0 && t.edgeCount == 0 && t.lastEdgeUs == 900) = true ∧
    after (.poll 1000 181) State.reset (fun t => t.winState == .idle && !t.trigOut) = true := by decide
/-- D-W10's last poll: it closes though a stronger byte is offered. -/
theorem test_poll_closes : after (.poll 1300 0) lastPoll
    (fun t => t.winState == .idle && !t.trigOut && t.pollCount == 0 && t.trigRssi == 180 &&
      t.events == [.windowClosed 300 180]) = true := by decide

/-- D-W14 and D-W15. -/
theorem test_hbeat : after (.hbeat 1000000) State.reset (fun t => t.events == [.heartbeat 1000000 false]) = true ∧
    after (.hbeat 1050) windowOpen (fun t => t.events == [.heartbeat 1050 true]) = true := by decide

/-- The table of CLASSIFY in 95_test_vectors.md. -/
theorem test_classify_tags :
    ([0, 1, 389, 601, 700, 849, 1201, 1464, 10000, 4294967295] : List Nat).all
      (classifyTag Config.default · == .invalid) = true ∧
    ([390, 488, 600] : List Nat).all (classifyTag Config.default · == .short) = true ∧
    ([850, 976, 1200] : List Nat).all (classifyTag Config.default · == .long) = true := by decide
theorem test_classify_active : after (.classify 390) State.reset
    (fun t => t.active && t.result == .classified ⟨.short, 390⟩) = true ∧
    after (.classify 700) { State.reset with active := true } (fun t => !t.active) = true := by decide

/-- The table of IDLECHK: a gap of 1464 is not idle, 1465 is. -/
theorem test_idlechk : after (.idlechk 11464) { State.reset with lastEdgeUs := 10000, active := true }
    (fun t => t.active && t.result == .idleChecked false) = true ∧
    after (.idlechk 11465) { State.reset with lastEdgeUs := 10000, active := true }
      (fun t => !t.active && t.result == .idleChecked true) = true := by decide
/-- The same across a clock wrap; IDLECHK never sets the output. -/
theorem test_idlechk_wraps : after (.idlechk 0x000004B8) { State.reset with lastEdgeUs := 0xFFFFFF00 }
    (fun t => !t.active && t.result == .idleChecked false) = true := by decide

/-- D-V1: the operation reads the buffer, and writes none of the block. -/
theorem test_validate : after .validate (State.reset.setMessage bytes1A2D)
    (fun t => t.result == .validated (.accepted reading1A2D) && t.events == [] && !t.active) = true := by decide
/-- D-V1 to D-V5, D-V12 to D-V16 packed (R78), and D-V7 to D-V11, D-V18 to D-V20 with their labels (R206). -/
theorem test_validate_vectors :
    (([(bytes1A2D, 0x1A2D127008F47800#64),
      ([0x1A, 0x2D, 0x20, 0xA5, 0x54, 0x06, 0x48, 0x83, 0x47], 0x1A2D25AFFBF22000#64),
      ([0x1A, 0x2D, 0x40, 0x0F, 0x0C, 0x00, 0x08, 0x00, 0x37], 0x1A2D4F0000000000#64),
      ([0x1A, 0x2D, 0xF0, 0xFF, 0xF3, 0xFF, 0xF8, 0xFF, 0xA2], 0x1A2DFFFF97FA5800#64),
      ([0x1A, 0x2D, 0x10, 0x00, 0x00, 0x00, 0x00, 0x00, 0x11], 0x1A2D100000000800#64),
      (bytesEA4C, 0xEA4C25500D900800#64),
      ([0xEA, 0x4C, 0x10, 0x3C, 0x48, 0x05, 0xF0, 0x03], 0xEA4C1C3003600000#64),
      ([0xEA, 0x4C, 0xFF, 0xFF, 0xFF, 0xFF, 0x60, 0x09], 0xEA4CFFF068100000#64),
      ([0xEA, 0x4C, 0x00, 0x00, 0x00, 0x00, 0xE0, 0x01], 0xEA4C000000000800#64)] :
        List (List Byte × BitVec 64)).all fun p =>
      (validate Config.default p.1).reading?.map DecodedReading.pack == some p.2) = true ∧
    (([(badBytes, .checksumMismatch), (bytes1A2D.take 8, .tooShort), (bytes1A2D.take 7, .tooShort), ([], .tooShort),
      ([0x1A, 0x2C, 0x10, 0x72, 0x30, 0x14, 0x10, 0xC7, 0x36], .unknownType),
      ([0xEA, 0x4C, 0x20, 0x55, 0x70, 0x21, 0x48, 0x03], .checksumMismatch),
      ([0xEA, 0x4C, 0x20, 0x55, 0x70, 0x21, 0x40, 0x13], .checksumMismatch),
      (bytesEA4C.take 7, .tooShort)] : List (List Byte × Reject)).all fun p =>
      validate Config.default p.1 == .rejected p.2) = true := by decide

/-- Least lengths above a message's length reject it; below the bytes a rule reads they do not help (R11, R158). -/
theorem test_validate_lengths :
    validate { Config.default with minLen1A2D := 10 } bytes1A2D = .rejected .tooShort ∧
    validate { Config.default with minLen := 9 } bytesEA4C = .rejected .tooShort ∧
    validate { Config.default with minLen := 4, minLen1A2D := 4 } (bytes1A2D.take 8) = .rejected .tooShort ∧
    validate { Config.default with minLen := 9, minLen1A2D := 9 } bytes1A2D = .accepted reading1A2D := by decide

/-- D-S5, and D-S7: the tag does not gate the reading. -/
theorem test_step_reading : after (.step 1500) (completing bytes1A2D)
    (fun t => t.message == bytes1A2D && t.msgLen == 9 && t.events == [.reading reading1A2D] && t.active &&
      t.calls.contains .decoderReset) = true ∧
    after (.step 2200) { completing bytesEA4C with slotWidth := 700, active := true }
      (fun t => !t.active && t.events == [.reading readingEA4C]) = true := by decide
/-- D-S3, D-S4 and D-S6. -/
theorem test_step_no_reading :
    after (.step 2952) { withSample 0 1488 with active := true } (fun t => t.active) = true ∧
    after (.step 2953) { withSample 0 1488 with active := true } (fun t => !t.active) = true ∧
    after (.step 1500) (completing badBytes)
      (fun t => t.msgLen == 9 && t.events == [] && t.calls.contains .decoderReset) = true := by decide

/-- RESET from a window with a sample waiting and a message in the buffer (R235). -/
theorem test_reset : after .reset ({ lastPoll with slotWidth := 5, edgeCount := 3, active := true }.setMessage bytes1A2D)
    (fun t => t == { State.reset with cfg := lastPoll.cfg }) = true := by decide

/-- The calls of boot carry the configured pins and frequency (R240, R11). -/
theorem test_boot :
    (match boot { State.reset with
        cfg := { Config.default with radioHz := some 433920000, demodPin := some 2, trigPin := some 3 } } with
      | .next t => t.calls.take 4 == [.setFrequency (some 433920000), .setReceiveMode,
          .setPinMode (.demod (some 2)) .input, .setPinMode (.trig (some 3)) .output] &&
        t.calls.getLast? == some (.attachEdgeInterrupt (.demod (some 2)) .producer)
      | _ => false) = true ∧ Handler.producer.operation 1000 = .edge 1000 := by decide

/-- D-W6's parameter, and the steps of P3 that set the buffer (R88). -/
theorem test_directives :
    (match directive (.param .rssiThreshold 0) State.reset with
      | .next t => t.cfg.rssiThreshold == 0 && t.cfg.legal
      | _ => false) = true ∧
    (match directive (.msg bytesEA4C) (State.reset.setMessage badBytes) with
      | .next t => t.message == bytesEA4C && Memory.read t.msg 8 == 0x37
      | _ => false) = true := by decide

/-- P4: the decoder answers false until `.decoder` scripts an answer, then completes the message (R88). -/
theorem test_listing_decoder :
    (match runListing [.line ⟨.reset, []⟩, .line ⟨.edge, [1000]⟩, .line ⟨.step, [1010]⟩, .line ⟨.edge, [1488]⟩,
        .directive (.decoderDone bytes1A2D), .line ⟨.step, [1500]⟩] State.reset with
      | .next t => t.events == [.reading reading1A2D] && t.decoder == .scripted [] && t.active
      | _ => false) = true ∧
    (match runListing [.line ⟨.edge, [1000]⟩, .line ⟨.step, [1010]⟩] State.reset with
      | .next t => t.events == [] && t.msgLen == 0 && t.calls.contains (.feed 1000)
      | _ => false) = true := by decide

/-- A parameter after the first RESET, and a line with too few operands. -/
theorem test_listing_refusals :
    runListing [.directive (.param .capturePolls 3), .line ⟨.reset, []⟩, .directive (.param .capturePolls 4)]
      State.reset = .refused .lateParameter ∧
    runListing [.line ⟨.poll, [5000]⟩] State.reset = .refused .illFormedLine := ⟨rfl, rfl⟩

/-! ## Hypotheses that can be met -/

theorem witness_decodeOfEncode : (Instr.poll 0xFFFFFFFF 255).wellFormed = true := rfl

theorem witness_encodeOfDecode : decode 0x0300001388B4#48 = .ok (.poll 5000 180) := rfl

theorem witness_decodeSelects : (⟨.poll, 0x030000000000#48, 0xFF0000000000#48⟩ : OpcodeRow) ∈ opcodeMap := by decide

/-- Each clause of `ReservedWordsAreRefused` at the ends of its range. -/
theorem witness_reservedWords : State.reset.cfg.legal = true ∧
    (∀ w ∈ [0x090000000000#48, 0xFE0000000000#48],
      0x09 ≤ (EventWord.op w).toNat ∧ (EventWord.op w).toNat ≤ 0xFE) ∧
    (∀ w ∈ [0x000000000001#48, 0x020000000100#48, 0x070000000001#48, 0xFF0000000001#48],
      (EventWord.op w).toNat ∈ [0x00, 0x02, 0x07, 0xFF] ∧ (EventWord.fieldA w ≠ 0 ∨ EventWord.fieldB w ≠ 0)) ∧
    (∀ w ∈ [0x010000000001#48, 0x0400000000FF#48, 0x050000000001#48, 0x060000000001#48, 0x080000000001#48],
      (EventWord.op w).toNat ∈ [0x01, 0x04, 0x05, 0x06, 0x08] ∧ EventWord.fieldB w ≠ 0) := by
  refine ⟨by decide, ?_, ?_, ?_⟩ <;> simp [EventWord.op, EventWord.fieldA, EventWord.fieldB]

/-- EDGE from the reset state, and RESET from a state no run may start in. -/
theorem witness_stepRuns :
    (State.reset.cfg.legal = true ∧ decode 0x01000003E800#48 = .ok (.edge 1000) ∧ State.reset.startable = true) ∧
    (decode 0xFF0000000000#48 = .ok .reset ∧ ({ State.reset with trigOut := true } : State).startable = false) :=
  ⟨⟨by decide, rfl, by decide⟩, rfl, by decide⟩

theorem witness_stepOutside :
    ({ State.reset with cfg := { Config.default with capturePolls := 0 } } : State).cfg.legal = false ∧
    (State.reset.cfg.legal = true ∧ State.reset.inbox = []) ∧
    (decode 0x000000000000#48 = .ok .nop ∧ Instr.nop ≠ .reset ∧
      ({ State.reset with inbox := [0], pollCount := 1 } : State).startable = false) :=
  ⟨by decide, ⟨by decide, rfl⟩, rfl, by decide, by decide⟩

/-- The largest true interval stored right, and the least that reads empty, from an earlier edge at 1000. -/
theorem witness_edgeWidth :
    let s : State := { State.reset with lastEdgeUs := 1000 }
    s.cfg.tsBits ≤ 32 ∧ s.lastEdgeUs = (timestamp 1000).toNat % 2 ^ s.cfg.tsBits ∧
    (1000 ≤ 1000 + (2 ^ 32 - 1) ∧ 1000 + (2 ^ 32 - 1) - 1000 < 2 ^ s.cfg.tsBits) ∧
    (1000 + 2 ^ 32 - 1000) % 2 ^ s.cfg.tsBits = 0 := by decide

theorem witness_edgeTouches : ∃ t t', exec (.edge 5) windowOpen = .next t ∧ exec (.edge 5) State.reset = .next t' ∧
    windowOpen.cfg = State.reset.cfg ∧ windowOpen.lastEdgeUs = State.reset.lastEdgeUs ∧
    windowOpen.edgeCount = State.reset.edgeCount :=
  ⟨_, _, rfl, rfl, rfl, rfl, rfl⟩

/-- From an open window: between the edges a POLL inside it, an IDLECHK and more, after the second another POLL. -/
theorem witness_laterEdge :
    ∃ a b c, exec (.edge 1488) windowOpen = .next a ∧
      everyIn leavesSlot [.poll 1500 200, .idlechk 1500, .validate, .classify 5, .nop] a = true ∧
      execAll [.poll 1500 200, .idlechk 1500, .validate, .classify 5, .nop] a = .next b ∧
      exec (.edge 1976) b = .next c ∧ everyIn leavesSlot [.poll 2000 0, .hbeat 2000] c = true ∧
      (488 : Int) = (((1976#32).toNat : Int) - (1488#32).toNat) % 2 ^ windowOpen.cfg.tsBits :=
  ⟨_, _, _, rfl, by decide, rfl, rfl, by decide, by decide⟩

theorem witness_drainTakes : State.reset.slotWidth = 0 ∧ (withSample 488 1488).slotWidth ≠ 0 := by decide

theorem witness_drainAgain : edgesIn [.nop, .classify 488] = 0 ∧
    ∃ t u, execAll (.drain :: [.nop, .classify 488]) (withSample 488 1488) = .next t ∧ exec .drain t = .next u :=
  ⟨rfl, _, _, rfl, rfl⟩

/-- An opening POLL; EDGEs and POLLs inside a window from the largest count; an operation from another count. -/
theorem witness_edgeCounter :
    (∃ t, clearsProducer (.poll 1000 180) (withSample 488 900) = true ∧
      exec (.poll 1000 180) (withSample 488 900) = .next t) ∧
    (let s : State := { windowOpen with edgeCount := 0xFFFFFFFF }
     s.edgeCount < 2 ^ s.cfg.edgeCntBits ∧
     everyIn keepsProducer [.edge 1100, .poll 1200 0, .edge 1300, .drain] s = true ∧
     ∃ t, execAll [.edge 1100, .poll 1200 0, .edge 1300, .drain] s = .next t) ∧
    ∃ t, exec (.poll 1200 0) windowOpen = .next t :=
  ⟨⟨_, by decide, rfl⟩, ⟨by decide, by decide, _, rfl⟩, _, rfl⟩

theorem witness_pollOpens : State.reset.winState = .idle ∧
    State.reset.cfg.rssiThreshold = Config.default.rssiThreshold := by decide

theorem witness_openingPoll : State.reset.winState = .idle ∧ (180#8).toNat ≤ State.reset.cfg.rssiThreshold := by
  decide

theorem witness_pollInside : windowOpen.winState = .capturing ∧
    windowOpen.pollCount + 1 < 2 ^ windowOpen.cfg.pollCntBits ∧
    windowOpen.pollCount + 1 ≠ windowOpen.cfg.capturePolls := by decide

theorem witness_closingPoll : lastPoll.winState = .capturing ∧
    lastPoll.pollCount + 1 < 2 ^ lastPoll.cfg.pollCntBits ∧
    lastPoll.pollCount + 1 = lastPoll.cfg.capturePolls := by decide

theorem witness_weakSignal : State.reset.winState = .idle ∧
    ∀ p ∈ ([(100, 200), (200, 181)] : List (Word × Byte)), State.reset.cfg.rssiThreshold < p.2.toNat := by
  simp [State.reset, Config.default]

/-- A window of two polls with other operations between: the two clauses at their boundary, one POLL and two. -/
theorem witness_windowCloses :
    let s : State := { windowOpen with cfg := { Config.default with capturePolls := 2 }, decoder := .scripted [] }
    let one : List Instr := [.edge 1050, .poll 1100 100, .step 1100, .hbeat 1150]
    let two : List Instr := one ++ [.poll 1200 0, .validate]
    s.cfg.legal = true ∧ s.winState = .capturing ∧ s.trigOut = true ∧ s.pollCount = 0 ∧
    (Instr.reset ∉ one ∧ pollsIn one < s.cfg.capturePolls ∧
      ∃ t, execAll one s = .next t) ∧
    (Instr.reset ∉ two ∧ pollsIn two = s.cfg.capturePolls ∧
      ∃ t, execAll two s = .next t) :=
  ⟨by decide, rfl, rfl, rfl, ⟨by decide, by decide, _, rfl⟩, ⟨by decide, by decide, _, rfl⟩⟩

theorem witness_onlyThePollCount : Instr.name (.hbeat 5) ≠ .poll ∧ Instr.name (.hbeat 5) ≠ .reset ∧
    ∃ t, exec (.hbeat 5) windowOpen = .next t := ⟨by decide, by decide, _, rfl⟩

theorem witness_classify : State.reset.cfg.legal = true := by decide

/-- A decoder with an empty script answers false for ever (R88). -/
theorem silentDecoder_stays {i : Instr} {s t : State} (h : exec i s = .next t) (hd : s.decoder = .scripted []) :
    t.decoder = .scripted [] := by
  have ha : s.decoder.answer = none := by rw [hd]; rfl
  cases i with
  | poll now rssi =>
    rcases execPoll_cases now rssi s with ⟨-, -, e⟩ | ⟨-, -, e⟩ | ⟨-, -, e⟩ | ⟨-, -, e⟩ <;>
      (cases e.symm.trans h; exact hd)
  | step now =>
    rcases execStep_cases now s with ⟨-, e⟩ | ⟨-, -, e⟩ | ⟨_, -, hs, -⟩ | ⟨_, -, hs, -⟩
    · cases e.symm.trans h; exact hd
    · cases e.symm.trans h; rw [forwardSample_eq, hd]; rfl
    · rw [ha] at hs; cases hs
    · rw [ha] at hs; cases hs
  | _ => cases h; exact hd

theorem silentDecoder_run {ops : List Instr} {s t : State} (h : execAll ops s = .next t)
    (hd : s.decoder = .scripted []) : t.decoder = .scripted [] := by
  induction ops generalizing s with
  | nil => cases h; exact hd
  | cons i ops ih =>
    unfold execAll at h
    split at h
    · rename_i u hu
      exact ih h (silentDecoder_stays hu hd)
    · cases h
    · cases h

/-- Two Invalid widths stored, a width of 0 and one drained, with a decoder that answers false for ever. -/
theorem witness_invalidWidths :
    let s : State := { State.reset with decoder := .scripted [] }
    let ops : List Instr :=
      [.edge 5000, .step 5001, .edge 5700, .poll 5750 0, .edge 5700, .classify 700, .edge 6400, .drain, .step 6500]
    s.active = false ∧ s.onlyInvalidFed ∧ s.slotWidth = 0 ∧
    (∀ p ∈ gather sampleStored ops s, p.widthUs = 0 ∨ classifyTag s.cfg p.widthUs = .invalid) ∧
    (∀ w, Instr.classify w ∈ ops → classifyTag s.cfg w.toNat = .invalid) ∧
    DecoderNeedsValidPulsesIn ops s :=
  ⟨rfl, by intro w h; simp [fedSinceReset, State.reset] at h, rfl, by decide,
    by intro w h; simp at h; subst h; decide,
    fun _ _ _ u _ hu _ _ _ => by rw [silentDecoder_run hu rfl]; rfl⟩

theorem witness_validateFunction :
    let s := State.reset.setMessage bytesEA4C
    let r : State := { State.reset with cfg := { Config.default with msgMax := 9 } }
    let s' := (r.setMessage badBytes).setMessage bytesEA4C
    s.cfg.minLen = s'.cfg.minLen ∧ s.cfg.minLen1A2D = s'.cfg.minLen1A2D ∧ s.msgLen = s'.msgLen ∧ s.msg ≠ s'.msg ∧
    ∀ i, i < s.msgLen → Memory.read s.msg i = Memory.read s'.msg i := by decide

theorem witness_nibbleSum : 0 ≤ 8 ∧ 8 ≤ bytesEA4C.length := by decide

/-- One message for each type clause, with the least lengths at their lengths: the first type, the second, another. -/
theorem witness_sensorType :
    let cfg : Config := { Config.default with minLen := 8, minLen1A2D := 9 }
    (9 ≤ bytes1A2D.length ∧ cfg.minLen ≤ bytes1A2D.length ∧ cfg.minLen1A2D ≤ bytes1A2D.length ∧
      (bytes1A2D.getD 0 0).toNat * 256 + (bytes1A2D.getD 1 0).toNat = 0x1A2D) ∧
    (8 ≤ bytesEA4C.length ∧ cfg.minLen ≤ bytesEA4C.length ∧
      (bytesEA4C.getD 0 0).toNat * 256 + (bytesEA4C.getD 1 0).toNat = 0xEA4C) ∧
    (((0x1A#8 :: [0x2C#8]).getD 0 0).toNat * 256 + ((0x1A#8 :: [0x2C#8]).getD 1 0).toNat ≠ 0x1A2D ∧
      ((0x1A#8 :: [0x2C#8]).getD 0 0).toNat * 256 + ((0x1A#8 :: [0x2C#8]).getD 1 0).toNat ≠ 0xEA4C) ∧
    (validate cfg bytes1A2D).reading? = some reading1A2D := by decide

theorem witness_checksum1A2D : 9 ≤ bytes1A2D.length ∧ (bytes1A2D.getD 0 0).toNat = 0x1A ∧
    (bytes1A2D.getD 1 0).toNat = 0x2D := by decide

theorem witness_checksumEA4C : 8 ≤ bytesEA4C.length ∧ (bytesEA4C.getD 0 0).toNat = 0xEA ∧
    (bytesEA4C.getD 1 0).toNat = 0x4C := by decide

/-- An accepted message of each type: hypotheses of the statements about accepted messages. -/
theorem witness_accepted :
    (validate Config.default bytes1A2D = .accepted reading1A2D ∧ reading1A2D.sensorType = 0x1A2D) ∧
    (validate Config.default bytesEA4C = .accepted readingEA4C ∧ readingEA4C.sensorType = 0xEA4C) := by decide

/-- The magnitude clause: the digits 1, 4, 3 of D-V1. -/
theorem witness_temperature : (143 : Nat) =
    ((byteAt bytes1A2D 5).toNat / 16 * 10 + (byteAt bytes1A2D 5).toNat % 16) * 10 +
      (byteAt bytes1A2D 4).toNat / 16 := by decide

theorem witness_wellFormed1A2D : 9 ≤ bytes1A2D.length ∧ Config.default.minLen ≤ bytes1A2D.length ∧
    Config.default.minLen1A2D ≤ bytes1A2D.length ∧
    (bytes1A2D.getD 8 0).toNat = (nibbleSum bytes1A2D 0 8 - 10) % 256 ∧
    (bytes1A2D.getD 0 0).toNat * 256 + (bytes1A2D.getD 1 0).toNat = 0x1A2D := by decide

theorem witness_unknownType :
    let m : List Byte := [0x1A, 0x2C, 0x10, 0x72, 0x30, 0x14, 0x10, 0xC7]
    let m' : List Byte := [0x1A, 0x2C, 0, 0, 0, 0, 0, 0]
    sensorType m ≠ 0x1A2D ∧ sensorType m ≠ 0xEA4C ∧ 8 ≤ m.length ∧ 8 ≤ m'.length ∧
    Config.default.minLen ≤ m.length ∧ Config.default.minLen ≤ m'.length ∧
    byteAt m' 0 = byteAt m 0 ∧ byteAt m' 1 = byteAt m 1 := by decide

/-- Each clause by the rule's number, at its boundary, and by a parameter above it. -/
theorem witness_shortMessages : (bytes1A2D.take 7).length < 8 ∧
    bytes1A2D.length < ({ Config.default with minLen := 10 } : Config).minLen ∧
    ((bytes1A2D.take 8).length < 9 ∧ sensorType (bytes1A2D.take 8) = 0x1A2D) ∧
    (bytes1A2D.length < ({ Config.default with minLen1A2D := 10 } : Config).minLen1A2D ∧
      sensorType bytes1A2D = 0x1A2D) := by decide

theorem witness_singleBitFlips :
    validate Config.default bytes1A2D = .accepted reading1A2D ∧ reading1A2D.sensorType = 0x1A2D ∧ 8 < 9 ∧ 7 < 8 := by
  decide

theorem witness_bytesBeyond :
    (Config.default.minLen ≤ bytes1A2D.length ∧ Config.default.minLen ≤ bytesEA4C.length ∧
      Config.default.minLen1A2D ≤ bytes1A2D.length) ∧
    (sensorType bytes1A2D = 0x1A2D ∧ 9 ≤ bytes1A2D.length ∧ (bytes1A2D ++ [0xFF]).take 9 = bytes1A2D.take 9) ∧
    (sensorType bytesEA4C = 0xEA4C ∧ 8 ≤ bytesEA4C.length ∧ (bytesEA4C ++ [0x99]).take 8 = bytesEA4C.take 8) := by
  decide

theorem witness_rejectedBuffers :
    Memory.wf (completing badBytes).msg = true ∧ (completing badBytes).slotWidth ≠ 0 ∧
    (completing badBytes).decoder.answer = some badBytes ∧
    badBytes.length ≤ (completing badBytes).cfg.msgMax ∧ (validate Config.default badBytes).reading? = none := by
  decide

theorem witness_stepOnEmpty : State.reset.slotWidth = 0 := rfl

theorem witness_stepFeeds : (withSample 488 1488).slotWidth ≠ 0 ∧ (withSample 488 1488).decoder.answer = none := by
  decide

theorem witness_stepTakes :
    Memory.wf (completing bytes1A2D).msg = true ∧ (completing bytes1A2D).slotWidth ≠ 0 ∧
    (completing bytes1A2D).decoder.answer = some bytes1A2D ∧
    bytes1A2D.length ≤ (completing bytes1A2D).cfg.msgMax := by decide

/-- A capacity of 8 bytes and a message of 9; and an oracle whose next answer fits. -/
theorem witness_tooLong :
    ((completing bytes1A2D).slotWidth ≠ 0 ∧ (completing bytes1A2D).decoder.answer = some bytes1A2D ∧
      ({ completing bytes1A2D with cfg := { Config.default with msgMax := 8 } } : State).cfg.msgMax <
        bytes1A2D.length) ∧
    (withSample 488 1488).answerFits :=
  ⟨by decide, by intro bytes h; simp [withSample, Decoder.answer] at h⟩

theorem witness_widthIsFed : (withSample 488 1488).slotWidth ≠ 0 ∧
    ∃ t, exec (.step 1500) (withSample 488 1488) = .next t := ⟨by decide, _, rfl⟩

theorem witness_readings :
    Memory.wf (completing bytes1A2D).msg = true ∧ Instr.step 1500 ≠ .reset ∧
    ∃ t, exec (.step 1500) (completing bytes1A2D) = .next t := ⟨by decide, by decide, _, rfl⟩

theorem witness_readingsValidated : (completing bytes1A2D).inv = true ∧ Instr.step 1500 ≠ .reset ∧
    ∃ t, exec (.step 1500) (completing bytes1A2D) = .next t ∧
      t.events = (completing bytes1A2D).events ++ [.reading reading1A2D] :=
  ⟨by decide, by decide, _, rfl, by decide⟩

theorem witness_stepIgnoresWindow : ∃ t, exec (.step 1500) (withSample 488 1488) = .next t := ⟨_, rfl⟩

/-- For every agent an operation that completes; an opening POLL over a waiting sample changes the shared cell. -/
theorem witness_contexts :
    (∃ t, exec (.edge 5) State.reset = .next t ∧ Instr.agent (.edge 5) = .isr) ∧
    (∃ t, exec (.poll 5 0) (withSample 488 1488) = .next t ∧ Instr.agent (.poll 5 0) = .main ∧
      t.slotWidth ≠ (withSample 488 1488).slotWidth) :=
  ⟨⟨_, rfl, rfl⟩, _, rfl, rfl, by decide⟩

/-- Each clause of `OnlyStepAndResetWriteTheBuffer`. -/
theorem witness_buffer :
    (∃ t, exec .validate (completing bytes1A2D) = .next t ∧ (∀ now, Instr.validate ≠ .step now) ∧
      Instr.validate ≠ .reset) ∧
    (∃ t, exec (.step 5) State.reset = .next t ∧ State.reset.slotWidth = 0) ∧
    (∃ t, exec (.step 1500) (completing bytes1A2D) = .next t ∧ (completing bytes1A2D).slotWidth ≠ 0 ∧
      (completing bytes1A2D).decoder.answer = some bytes1A2D ∧ bytes1A2D.length ≤ 9) ∧
    (∃ t, exec .reset (completing bytes1A2D) = .next t) :=
  ⟨⟨_, rfl, by simp, by decide⟩, ⟨_, rfl, rfl⟩, ⟨_, rfl, by decide, by decide, by decide⟩, _, rfl⟩

theorem witness_eventsAppend : Instr.hbeat 5 ≠ .reset ∧ ∃ t, exec (.hbeat 5) windowOpen = .next t :=
  ⟨by decide, _, rfl⟩

theorem witness_decoderReset : Instr.step 1500 ≠ .reset ∧
    ∃ t, exec (.step 1500) (completing badBytes) = .next t := ⟨by decide, _, rfl⟩

/-- Invariant states a step starts from: the reset state, a window one poll before its end, a sample that completes a
message. -/
theorem witness_everyStep :
    (∀ s ∈ [State.reset, lastPoll, completing bytes1A2D], s.inv = true) ∧
    ∃ t, step (lastPoll.present 0x03000005140A#48) = .next t ∧ t.winState = .idle :=
  ⟨by decide, _, rfl, rfl⟩

/-- A message that fits, one that does not, and an operation of a listing with nothing scripted. -/
theorem witness_directives : Memory.wf State.reset.msg = true ∧ bytes1A2D.length ≤ State.reset.cfg.msgMax ∧
    ({ State.reset with cfg := { Config.default with msgMax := 8 } } : State).cfg.msgMax < bytes1A2D.length ∧
    (withSample 488 1488).decoder = (withSample 488 1488).withListingDecoder.decoder ∧
    ∃ t, exec (.step 1500) (withSample 488 1488) = .next t := ⟨by decide, by decide, by decide, rfl, _, rfl⟩

theorem witness_boot : State.reset.cfg.legal = true := by decide

end Sys2Proof.Tests
end

section
/-! Readings and the buffer they are made from (10_state.md R39): which operations append one, and what the buffer then
holds. -/

namespace Sys2Proof.Machine

theorem State.msg_wf_of_inv {s : State} (h : s.inv = true) : Memory.wf s.msg = true := by
  simp only [State.inv, Bool.and_eq_true] at h
  obtain ⟨⟨-, hwf⟩, -⟩ := h
  exact hwf

@[simp] theorem Verdict.reading?_eq_some_iff (v : Verdict) (r : DecodedReading) :
    v.reading? = some r ↔ v = .accepted r := by
  cases v <;> simp [Verdict.reading?]

/-- The event a verdict gives is a reading exactly when the verdict accepts with it. -/
theorem Verdict.reading_mem_toList_iff (v : Verdict) (r : DecodedReading) :
    Event.reading r ∈ (v.reading?.map Event.reading).toList ↔ v = .accepted r := by
  simp

@[simp] theorem takeMessage_cfg (bytes : List Byte) (s : State) : (takeMessage bytes s).cfg = s.cfg := by
  rw [takeMessage_eq]

/-- After STEP has taken a message the buffer holds it (44_pipeline.md R191). -/
theorem takeMessage_message (bytes : List Byte) (s : State) (hwf : Memory.wf s.msg = true) :
    (takeMessage bytes s).message = bytes := by
  rw [takeMessage_eq]
  exact s.message_setMessage bytes hwf

/-- Taking a message appends the reading VALIDATE finds in the bytes, if there is one (44_pipeline.md R193). -/
theorem takeMessage_events (bytes : List Byte) (s : State) (hwf : Memory.wf s.msg = true) :
    (takeMessage bytes s).events =
      s.events ++ ((validate s.cfg bytes).reading?.map Event.reading).toList := by
  rw [takeMessage_eq, s.message_setMessage bytes hwf]

/-- A completing STEP appends no event, or the reading of the message that the buffer then holds. -/
theorem execStep_events {now : Word} {s t : State} (hwf : Memory.wf s.msg = true) (h : execStep now s = .next t) :
    t.events = s.events ∨
      t.events = s.events ++ ((validate t.cfg t.message).reading?.map Event.reading).toList := by
  rcases execStep_cases now s with ⟨-, e⟩ | ⟨-, -, e⟩ | ⟨bytes, -, -, -, e⟩ | ⟨bytes, -, -, -, e⟩
  · cases e.symm.trans h; exact .inl rfl
  · cases e.symm.trans h; exact .inl rfl
  · cases e.symm.trans h
    have hfwd : Memory.wf (forwardSample ⟨s.slotWidth, s.slotTime⟩ s).msg = true := hwf
    rw [takeMessage_message _ _ hfwd, takeMessage_cfg]
    exact .inr (takeMessage_events bytes _ hfwd)
  · cases e.symm.trans h

/-- POLL appends a closing event or none, so no reading (41_window.md R125). -/
theorem execPoll_events {now : Word} {rssi : Byte} {s t : State} (h : execPoll now rssi s = .next t) :
    t.events = s.events ∨ ∃ elapsed, t.events = s.events ++ [.windowClosed elapsed s.trigRssi] := by
  rcases execPoll_cases now rssi s with ⟨-, -, e⟩ | ⟨-, -, e⟩ | ⟨-, -, e⟩ | ⟨-, -, e⟩
  · cases e.symm.trans h; exact .inr ⟨_, rfl⟩
  · cases e.symm.trans h; exact .inl rfl
  · cases e.symm.trans h; exact .inl rfl
  · cases e.symm.trans h; exact .inl rfl

/-- Every reading that a completing operation other than RESET appends is the one VALIDATE gives for the message the
buffer then holds. Only STEP appends one (44_pipeline.md R193). -/
theorem exec_readings_validate {i : Instr} {s t : State} (hwf : Memory.wf s.msg = true) (hr : i ≠ .reset)
    (h : exec i s = .next t) :
    ∃ new, t.events = s.events ++ new ∧ ∀ r, Event.reading r ∈ new → validate t.cfg t.message = .accepted r := by
  cases i with
  | step now =>
    rcases execStep_events hwf h with e | e
    · exact ⟨[], by simp [e], by simp⟩
    · exact ⟨_, e, fun r => (Verdict.reading_mem_toList_iff _ r).1⟩
  | poll now rssi =>
    rcases execPoll_events h with e | ⟨elapsed, e⟩
    · exact ⟨[], by simp [e], by simp⟩
    · exact ⟨_, e, by simp⟩
  | hbeat now => cases h; exact ⟨_, rfl, by simp⟩
  | reset => exact absurd rfl hr
  | nop | edge _ | drain | classify _ | idlechk _ | validate =>
    cases h; exact ⟨[], (List.append_nil _).symm, by simp⟩

/-- Settles O49: a reading appended is VALIDATE's for the buffer, and VALIDATE accepts only after its length and
checksum checks. -/
theorem readingsAreFullyValidated : Obligations.ReadingsAreFullyValidated := by
  intro i s t hinv hr h
  obtain ⟨new, hnew, hread⟩ := exec_readings_validate (State.msg_wf_of_inv hinv) hr h
  refine ⟨new, hnew, fun r hmem => ?_⟩
  have hacc := hread r hmem
  obtain ⟨-, hlen, hsum⟩ := validate_accepted hacc
  refine ⟨hacc, (le_max_right _ _).trans hlen, hsum.imp ?_ id⟩
  rintro ⟨htype, -, hcheck⟩
  exact ⟨htype, hcheck⟩

end Sys2Proof.Machine
end

section
/-! EDGE's effect, written once (40_producer.md R101), and its frame (R102). -/

namespace Sys2Proof.Machine

/-- EDGE completes from every state, and this is its whole effect. -/
theorem exec_edge (now : Word) (s : State) :
    exec (.edge now) s = .next { s with
      slotWidth := interval s.cfg now s.lastEdgeUs
      slotTime := stamp s.cfg now
      lastEdgeUs := stamp s.cfg now
      edgeCount := countUp s.cfg.edgeCntBits s.edgeCount } := rfl

/-- What a completed EDGE leaves in the four producer registers. -/
theorem exec_edge_producer {now : Word} {s t : State} (h : exec (.edge now) s = .next t) :
    t.slotWidth = interval s.cfg now s.lastEdgeUs ∧ t.slotTime = stamp s.cfg now ∧
      t.lastEdgeUs = stamp s.cfg now ∧ t.edgeCount = countUp s.cfg.edgeCntBits s.edgeCount := by
  cases (exec_edge now s).symm.trans h
  exact ⟨rfl, rfl, rfl, rfl⟩

/-- Settles O11: EDGE's whole effect writes only the four producer registers, and each value written is a function of
the clock value, the configuration, `last_edge_us` and `edge_count`. -/
theorem edgeTouchesOnlyTheProducer : Obligations.EdgeTouchesOnlyTheProducer := by
  constructor
  · intro now s
    exact ⟨_, exec_edge now s, rfl, rfl, rfl⟩
  · intro now s s' t t' hcfg hlast hcount h h'
    obtain ⟨hw, ht, hl, hc⟩ := exec_edge_producer h
    obtain ⟨hw', ht', hl', hc'⟩ := exec_edge_producer h'
    rw [hw, ht, hl, hc, hw', ht', hl', hc', hcfg, hlast, hcount]
    exact ⟨rfl, rfl, rfl, rfl⟩

end Sys2Proof.Machine
end

section
/-! POLL while no window is open (41_window.md R121, R122): what it does on each side of the threshold, and runs of
POLLs that stay above it (R130). -/

namespace Sys2Proof.Machine

@[simp] theorem openWindow_winState (now : Word) (rssi : Byte) (s : State) :
    (openWindow now rssi s).winState = .capturing := rfl

/-- A POLL in Idle at or below the threshold opens a window after its RSSI read. -/
theorem exec_poll_opens {rssi : Byte} {s : State} (now : Word) (hidle : s.winState = .idle)
    (hstrong : rssi.toNat ≤ s.cfg.rssiThreshold) :
    exec (.poll now rssi) s = .next (openWindow now rssi (s.call [.readRssi])) := by
  rcases execPoll_cases now rssi s with ⟨hw, -⟩ | ⟨hw, -⟩ | ⟨-, -, e⟩ | ⟨-, hweak, -⟩
  · cases hidle.symm.trans hw
  · cases hidle.symm.trans hw
  · exact e
  · exact absurd hstrong hweak.not_ge

/-- A POLL in Idle above the threshold reads RSSI and does nothing else. -/
theorem exec_poll_stays {rssi : Byte} {s : State} (now : Word) (hidle : s.winState = .idle)
    (hweak : s.cfg.rssiThreshold < rssi.toNat) :
    exec (.poll now rssi) s = .next (s.call [.readRssi]) := by
  rcases execPoll_cases now rssi s with ⟨hw, -⟩ | ⟨hw, -⟩ | ⟨-, hstrong, -⟩ | ⟨-, -, e⟩
  · cases hidle.symm.trans hw
  · cases hidle.symm.trans hw
  · exact absurd hstrong hweak.not_ge
  · exact e

/-- A POLL in Idle completes, and the window is then open exactly at or below the threshold (41_window.md R121). -/
theorem exec_poll_opens_iff (now : Word) (rssi : Byte) {s : State} (hidle : s.winState = .idle) :
    ∃ t, exec (.poll now rssi) s = .next t ∧
      (t.winState = .capturing ↔ rssi.toNat ≤ s.cfg.rssiThreshold) := by
  rcases le_or_gt rssi.toNat s.cfg.rssiThreshold with hstrong | hweak
  · exact ⟨_, exec_poll_opens now hidle hstrong, by simp [hstrong]⟩
  · exact ⟨_, exec_poll_stays now hidle hweak, by simp [hidle, hweak]⟩

/-- Settles O18: the comparison is that of the two cases of POLL in Idle, and each example is on its side of the
default threshold. -/
theorem pollOpensAtOrBelowTheThreshold : Obligations.PollOpensAtOrBelowTheThreshold := by
  refine ⟨fun now rssi s hidle => exec_poll_opens_iff now rssi hidle, fun now s hidle hdefault => ⟨?_, ?_⟩⟩
  · intro rssi hmem
    have hstrong : ∀ r ∈ [180#8, 179#8, 0#8], r.toNat ≤ Config.default.rssiThreshold := by decide
    exact ⟨_, exec_poll_opens now hidle (hdefault ▸ hstrong rssi hmem), openWindow_winState _ _ _⟩
  · intro rssi hmem
    have hweak : ∀ r ∈ [181#8, 200#8], Config.default.rssiThreshold < r.toNat := by decide
    exact ⟨_, exec_poll_stays now hidle (hdefault ▸ hweak rssi hmem), hidle⟩

/-- A run of POLLs above the threshold from Idle only logs one RSSI read for each (41_window.md R130). -/
theorem execAll_weakPolls (polls : List (Word × Byte)) (s : State) (hidle : s.winState = .idle)
    (hweak : ∀ p ∈ polls, s.cfg.rssiThreshold < p.2.toNat) :
    execAll (polls.map fun p => .poll p.1 p.2) s =
      .next (s.call (List.replicate polls.length .readRssi)) := by
  induction polls generalizing s with
  | nil => simp [execAll, State.call]
  | cons p ps ih =>
    obtain ⟨hp, hps⟩ := List.forall_mem_cons.1 hweak
    rw [List.map_cons, execAll_cons _ (exec_poll_stays p.1 hidle hp), ih (s.call [.readRssi]) hidle hps]
    simp [State.call, List.replicate_succ]

/-- Settles O22: by induction on the POLLs, each of which only logs its RSSI read. -/
theorem weakSignalNeverLeavesIdle : Obligations.WeakSignalNeverLeavesIdle :=
  ⟨fun s polls => execAll_weakPolls polls s, by decide⟩

end Sys2Proof.Machine
end

section
/-! The nibble sum (43_validator.md R157): the sum over the indices of its range, and its bounds. -/

namespace Sys2Proof.Machine

/-- The number one byte adds to a nibble sum. -/
theorem nibbles_eq (b : Byte) : highNibble b + lowNibble b = b.toNat / 16 + b.toNat % 16 := by
  rw [highNibble_eq, lowNibble_eq]

@[simp] theorem nibbleSum_self (m : List Byte) (lo : Nat) : nibbleSum m lo lo = 0 := by
  simp [nibbleSum, List.drop_eq_nil_of_le (List.length_take_le lo m)]

/-- The range being half-open, one index more adds the byte at the old upper end. -/
theorem nibbleSum_succ {m : List Byte} {lo hi : Nat} (hle : lo ≤ hi) (hlt : hi < m.length) :
    nibbleSum m lo (hi + 1) = nibbleSum m lo hi + (highNibble (byteAt m hi) + lowNibble (byteAt m hi)) := by
  have hbyte : byteAt m hi = m[hi] := List.getD_eq_getElem m 0 hlt
  have hlo : lo ≤ (m.take hi).length := by simp; omega
  rw [nibbleSum, List.take_succ_eq_append_getElem hlt, List.drop_append_of_le_length hlo, hbyte]
  simp [nibbleSum]

theorem nibbleSum_eq_sum_Ico {m : List Byte} {lo hi : Nat} (hle : lo ≤ hi) (hlen : hi ≤ m.length) :
    nibbleSum m lo hi = ∑ i ∈ Finset.Ico lo hi, ((byteAt m i).toNat / 16 + (byteAt m i).toNat % 16) := by
  induction hi, hle using Nat.le_induction with
  | base => simp
  | succ hi hle ih =>
    rw [nibbleSum_succ hle hlen, ih (by omega), Finset.sum_Ico_succ_top hle, nibbles_eq]

/-- A byte adds at most 30. -/
theorem nibbleSum_le (m : List Byte) (lo hi : Nat) : nibbleSum m lo hi ≤ 30 * (hi - lo) := by
  have hlength : ((m.take hi).drop lo).length ≤ hi - lo := by simp; omega
  exact (nibbles_sum_le _).trans (Nat.mul_le_mul_left 30 hlength)

/-- A longer range has at least the sum of a shorter one. -/
theorem nibbleSum_mono {m : List Byte} {lo hi hi' : Nat} (hle : lo ≤ hi) (h : hi ≤ hi') (hlen : hi' ≤ m.length) :
    nibbleSum m lo hi ≤ nibbleSum m lo hi' := by
  rw [nibbleSum_eq_sum_Ico hle (h.trans hlen), nibbleSum_eq_sum_Ico (hle.trans h) hlen]
  exact Finset.sum_le_sum_of_subset (Finset.Ico_subset_Ico_right h)

/-- What the two type bytes add to a sum from byte 0. -/
theorem nibbleSum_two {m : List Byte} (hlen : 2 ≤ m.length) :
    nibbleSum m 0 2 = ((byteAt m 0).toNat / 16 + (byteAt m 0).toNat % 16) +
      ((byteAt m 1).toNat / 16 + (byteAt m 1).toNat % 16) := by
  rw [nibbleSum_eq_sum_Ico (Nat.zero_le 2) hlen]
  simp [Finset.sum_range_succ]

/-- Settles O30: the sum by induction on the upper end, the bounds from 30 for each byte. -/
theorem nibbleSumAddsBothNibbles : Obligations.NibbleSumAddsBothNibbles :=
  ⟨fun _ _ _ => nibbleSum_eq_sum_Ico, fun m => ⟨nibbleSum_le m 0 8, nibbleSum_le m 0 6⟩, by decide⟩

end Sys2Proof.Machine
end

section
/-! The sensor type and what VALIDATE does with each (43_validator.md R156, R159, R160, R164). -/

namespace Sys2Proof.Machine

theorem sensorType_eq_append (m : List Byte) : sensorType m = byteAt m 0 ++ byteAt m 1 := by
  have happend := BitVec.append_def (byteAt m 0) (byteAt m 1)
  rw [BitVec.shiftLeftZeroExtend_eq, BitVec.setWidth'_eq] at happend
  exact happend.symm

/-- The type is the number of the first two bytes, the first more significant (43_validator.md R159). -/
theorem sensorType_toNat (m : List Byte) :
    (sensorType m).toNat = (byteAt m 0).toNat * 256 + (byteAt m 1).toNat := by
  rw [sensorType_eq_append, BitVec.toNat_append, ← Nat.shiftLeft_add_eq_or_of_lt (byteAt m 1).isLt, Nat.shiftLeft_eq]

theorem sensorType_eq_iff (m : List Byte) (t : BitVec 16) :
    sensorType m = t ↔ (byteAt m 0).toNat * 256 + (byteAt m 1).toNat = t.toNat := by
  rw [← sensorType_toNat, BitVec.toNat_inj]

/-- VALIDATE on a message of type `0x1A2D` that is long enough: that type's checksum decides. -/
theorem validate_type1A2D {cfg : Config} {m : List Byte} (ht : sensorType m = type1A2D)
    (hlen : leastLength cfg ≤ m.length) (hlen9 : leastLength1A2D cfg ≤ m.length) :
    validate cfg m = if checksum1A2D m then .accepted (extractReading m) else .rejected .checksumMismatch := by
  rw [validate, if_neg hlen.not_gt, if_pos ht, if_neg hlen9.not_gt]

/-- VALIDATE on a message of type `0xEA4C` that is long enough: that type's checksum decides. -/
theorem validate_typeEA4C {cfg : Config} {m : List Byte} (ht : sensorType m = typeEA4C)
    (hlen : leastLength cfg ≤ m.length) :
    validate cfg m = if checksumEA4C m then .accepted (extractReading m) else .rejected .checksumMismatch := by
  have hne : sensorType m ≠ type1A2D := ht ▸ by decide
  rw [validate, if_neg hlen.not_gt, if_neg hne, if_pos ht]

/-- VALIDATE on a message of any other type that is long enough: no checksum is looked at. -/
theorem validate_unknownType {cfg : Config} {m : List Byte} (h : sensorType m ≠ type1A2D) (h' : sensorType m ≠ typeEA4C)
    (hlen : leastLength cfg ≤ m.length) : validate cfg m = .rejected .unknownType := by
  rw [validate, if_neg hlen.not_gt, if_neg h, if_neg h']

/-- A message of any other type, of any length, gives no reading (43_validator.md R164). -/
theorem reading?_unknownType (cfg : Config) {m : List Byte} (h : sensorType m ≠ type1A2D)
    (h' : sensorType m ≠ typeEA4C) : (validate cfg m).reading? = none := by
  refine Option.eq_none_iff_forall_ne_some.2 fun r hr => ?_
  obtain ⟨-, -, ⟨ht, -⟩ | ⟨ht, -⟩⟩ := validate_accepted ((Verdict.reading?_eq_some_iff _ r).1 hr)
  · exact h ht
  · exact h' ht

/-- Where a check alone decides, there is a reading exactly when it passes. -/
theorem Verdict.isSome_reading?_ite (check : Bool) (r : DecodedReading) (why : Reject) :
    (if check then Verdict.accepted r else .rejected why).reading?.isSome = check := by
  cases check <;> rfl

/-- Settles O31: one equation of VALIDATE for each type, and the type of a reading is its message's. -/
theorem sensorTypeSelectsTheChecksum : Obligations.SensorTypeSelectsTheChecksum := by
  refine fun cfg m => ⟨fun h9 hmin hmin9 ht => ?_, fun h8 hmin ht => ?_, fun h h' => ?_, fun r hr => ?_⟩
  · have ht : sensorType m = type1A2D := (sensorType_eq_iff m _).2 ht
    have hlen : leastLength cfg ≤ m.length := max_le hmin (by omega)
    rw [validate_type1A2D ht hlen (max_le hmin9 h9), Verdict.isSome_reading?_ite]
  · have ht : sensorType m = typeEA4C := (sensorType_eq_iff m _).2 ht
    rw [validate_typeEA4C ht (max_le hmin h8), Verdict.isSome_reading?_ite]
  · exact reading?_unknownType cfg (mt (sensorType_eq_iff m _).1 h) (mt (sensorType_eq_iff m _).1 h')
  · obtain ⟨rfl, -⟩ := validate_accepted ((Verdict.reading?_eq_some_iff _ r).1 hr)
    exact sensorType_toNat m

/-- Settles O38: an unknown type is never accepted, and past the length check its verdict is one constant, with the type
read from the first two bytes only. -/
theorem unknownTypesAreRejected : Obligations.UnknownTypesAreRejected := by
  refine fun cfg m h h' => ⟨reading?_unknownType cfg h h', fun m' h8 hmin h8' hmin' h0 h1 => ?_⟩
  have htype : sensorType m' = sensorType m := by rw [sensorType, sensorType, h0, h1]
  rw [validate_unknownType h h' (max_le hmin h8),
    validate_unknownType (htype ▸ h) (htype ▸ h') (max_le hmin' h8')]

end Sys2Proof.Machine
end

section
/-! The two checksums as comparisons of numbers (43_validator.md R161, R162, R173). -/

namespace Sys2Proof.Machine

/-- The two type bytes alone add this much to a sum from byte 0. -/
theorem firstTwo_le_nibbleSum {m : List Byte} {hi : Nat} (hhi : 2 ≤ hi) (hlen : hi ≤ m.length) :
    ((byteAt m 0).toNat / 16 + (byteAt m 0).toNat % 16) + ((byteAt m 1).toNat / 16 + (byteAt m 1).toNat % 16) ≤
      nibbleSum m 0 hi := by
  rw [← nibbleSum_two (hhi.trans hlen)]
  exact nibbleSum_mono (Nat.zero_le 2) hhi hlen

/-- The type bytes `0x1A` and `0x2D` alone add 26, and each byte at most 30 (43_validator.md R161). -/
theorem nibbleSum_type1A2D_bounds {m : List Byte} (h0 : (byteAt m 0).toNat = 0x1A) (h1 : (byteAt m 1).toNat = 0x2D)
    (hlen : 8 ≤ m.length) : 26 ≤ nibbleSum m 0 8 ∧ nibbleSum m 0 8 ≤ 240 := by
  have htwo := firstTwo_le_nibbleSum (by decide : 2 ≤ 8) hlen
  rw [h0, h1] at htwo
  exact ⟨htwo, nibbleSum_le m 0 8⟩

/-- The type bytes `0xEA` and `0x4C` alone add 40, and each byte at most 30 (43_validator.md R162). -/
theorem nibbleSum_typeEA4C_bounds {m : List Byte} (h0 : (byteAt m 0).toNat = 0xEA) (h1 : (byteAt m 1).toNat = 0x4C)
    (hlen : 6 ≤ m.length) : 40 ≤ nibbleSum m 0 6 ∧ nibbleSum m 0 6 ≤ 180 := by
  have htwo := firstTwo_le_nibbleSum (by decide : 2 ≤ 6) hlen
  rw [h0, h1] at htwo
  exact ⟨htwo, nibbleSum_le m 0 6⟩

/-- A sum less 10 in 8 bits; from 10 on the integer subtraction is that of natural numbers (43_validator.md R173). -/
theorem toNat_ofInt_sub_ten {n : Nat} (h : 10 ≤ n) : (BitVec.ofInt 8 ((n : Int) - 0x0A)).toNat = (n - 10) % 256 := by
  rw [BitVec.toNat_ofInt]
  omega

theorem checksum1A2D_iff {m : List Byte} (h : 10 ≤ nibbleSum m 0 8) :
    checksum1A2D m = true ↔ (byteAt m 8).toNat = (nibbleSum m 0 8 - 10) % 256 := by
  rw [checksum1A2D, beq_iff_eq, ← BitVec.toNat_inj, toNat_ofInt_sub_ten h]

/-- Settles O32: the sum lies between the type bytes' 26 and 30 for each byte, so less 10 it fits a byte. -/
theorem checksum1A2DComparesByteEight : Obligations.Checksum1A2DComparesByteEight := by
  intro m hlen h0 h1
  obtain ⟨hlow, hhigh⟩ := nibbleSum_type1A2D_bounds h0 h1 (by omega)
  have hfits : (nibbleSum m 0 8 - 10) % 256 = nibbleSum m 0 8 - 10 := Nat.mod_eq_of_lt (by omega)
  exact ⟨hlow, hhigh, hfits ▸ checksum1A2D_iff (by omega)⟩

theorem toNat_shiftLeft_low (b : Byte) : ((b &&& 0x0F#8) <<< 4).toNat = b.toNat % 16 * 16 := by
  have hlow : (b &&& 0x0F#8).toNat = b.toNat % 16 := lowNibble_eq b
  rw [BitVec.toNat_shiftLeft, hlow, Nat.shiftLeft_eq]
  omega

theorem toNat_shiftRight_four (b : Byte) : (b >>> 4).toNat = b.toNat / 16 := highNibble_eq b

theorem checksumEA4C_iff (m : List Byte) :
    checksumEA4C m = true ↔ (checkByteEA4C m).toNat % 16 * 16 = (byteAt m 6).toNat ∧
      (checkByteEA4C m).toNat / 16 = (byteAt m 7).toNat := by
  rw [checksumEA4C, Bool.and_eq_true, beq_iff_eq, beq_iff_eq, ← BitVec.toNat_inj, ← BitVec.toNat_inj,
    toNat_shiftLeft_low, toNat_shiftRight_four]

theorem checkByteEA4C_toNat {m : List Byte} (h : 10 ≤ nibbleSum m 0 6 + lowNibble (byteAt m 6)) :
    (checkByteEA4C m).toNat = (nibbleSum m 0 6 + lowNibble (byteAt m 6) - 10) % 256 := by
  rw [← toNat_ofInt_sub_ten h, checkByteEA4C, Nat.cast_add]

/-- Settles O33: `s` is the check byte, which lies between the type bytes' 40 less 10 and the largest sum less 10. -/
theorem checksumEA4CComparesWholeBytes : Obligations.ChecksumEA4CComparesWholeBytes := by
  intro m hlen h0 h1
  obtain ⟨hlow, hhigh⟩ := nibbleSum_typeEA4C_bounds h0 h1 (by omega)
  have hnibble := lowNibble_le (byteAt m 6)
  have hs := checkByteEA4C_toNat (m := m) (by omega)
  have hmod : lowNibble (byteAt m 6) = (m.getD 6 0).toNat % 16 := lowNibble_eq _
  exact ⟨(checkByteEA4C m).toNat, by omega, by omega, by omega, checksumEA4C_iff m⟩

end Sys2Proof.Machine
end

section
/-! The fields of an accepted message (43_validator.md R167, R169, R170), and which `0x1A2D` buffers are accepted
(R174). -/

namespace Sys2Proof.Machine

theorem channel_toNat (m : List Byte) : (channel m).toNat = (byteAt m 2).toNat / 16 := by
  have := highNibble_le (byteAt m 2)
  rw [← highNibble_eq, channel, BitVec.toNat_ofNat, Nat.mod_eq_of_lt (by omega)]

theorem rollingCode_toNat (m : List Byte) :
    (rollingCode m).toNat = (byteAt m 3).toNat % 16 * 16 + (byteAt m 3).toNat / 16 := by
  have hlt : (byteAt m 3).toNat / 16 < 2 ^ 4 := by omega
  have hor := Nat.two_pow_add_eq_or_of_lt hlt ((byteAt m 3).toNat % 16)
  rw [rollingCode, BitVec.toNat_or, toNat_shiftLeft_low, toNat_shiftRight_four, Nat.mul_comm]
  exact hor.symm

/-- `0x0C` masks bits 2 and 3 (43_validator.md R167). -/
theorem batteryOk_iff (m : List Byte) :
    batteryOk m = true ↔ (byteAt m 4).getLsbD 2 = false ∧ (byteAt m 4).getLsbD 3 = false := by
  rw [batteryOk, beq_iff_eq]
  constructor
  · intro h
    have hbit : ∀ i, ((byteAt m 4) &&& 0x0C#8).getLsbD i = false := by simp [h]
    exact ⟨by simpa using hbit 2, by simpa using hbit 3⟩
  · rintro ⟨h2, h3⟩
    refine BitVec.eq_of_getLsbD_eq fun i hi => ?_
    interval_cases i <;> simp [-BitVec.getLsbD_eq_getElem, h2, h3]

/-- The battery, channel and rolling code that are extracted, as the rules give them. -/
theorem extractReading_fields (m : List Byte) :
    ((extractReading m).batteryOk = true ↔ (byteAt m 4).getLsbD 2 = false ∧ (byteAt m 4).getLsbD 3 = false) ∧
      (extractReading m).channel.toNat = (byteAt m 2).toNat / 16 ∧
      (extractReading m).rollingCode.toNat = (byteAt m 3).toNat % 16 * 16 + (byteAt m 3).toNat / 16 :=
  ⟨batteryOk_iff m, channel_toNat m, rollingCode_toNat m⟩

/-- Settles O35: an accepted message's reading is the extracted one. -/
theorem batteryChannelAndRollingCode : Obligations.BatteryChannelAndRollingCode := by
  intro cfg m r h
  obtain ⟨rfl, -⟩ := validate_accepted h
  exact extractReading_fields m

/-- Settles O37: the buffer passes the length checks and its checksum matches, so VALIDATE accepts with the extracted
fields. -/
theorem wellFormed1A2DBuffersAreAccepted : Obligations.WellFormed1A2DBuffersAreAccepted := by
  intro cfg b h9 hmin hmin9 hbyte htype
  have ht : sensorType b = type1A2D := (sensorType_eq_iff b _).2 htype
  have hlt1 := (b.getD 1 0).isLt
  have h0 : (b.getD 0 0).toNat = 0x1A := by omega
  have h1 : (b.getD 1 0).toNat = 0x2D := by omega
  obtain ⟨hsum, -⟩ := nibbleSum_type1A2D_bounds h0 h1 (by omega)
  have hcheck : checksum1A2D b = true := (checksum1A2D_iff (by omega)).2 hbyte
  have hlen : leastLength cfg ≤ b.length := max_le hmin (by omega)
  obtain ⟨hbattery, hchannel, hrolling⟩ := extractReading_fields b
  refine ⟨extractReading b, ?_, hchannel, hrolling, hbattery⟩
  rw [validate_type1A2D ht hlen (max_le hmin9 h9), if_pos hcheck]

end Sys2Proof.Machine
end

section
/-! STEP on a completed buffer that gives no reading (43_validator.md R172, 44_pipeline.md R193). -/

namespace Sys2Proof.Machine

/-- STEP on a sample with which the decoder completes a message that fits. -/
theorem exec_step_takes (now : Word) {s : State} {bytes : List Byte} (hw : s.slotWidth ≠ 0)
    (ha : s.decoder.answer = some bytes) (hl : bytes.length ≤ s.cfg.msgMax) :
    exec (.step now) s = .next (takeMessage bytes (forwardSample ⟨s.slotWidth, s.slotTime⟩ s)) := by
  rcases execStep_cases now s with ⟨hz, -⟩ | ⟨-, hn, -⟩ | ⟨bytes', -, ha', -, e⟩ | ⟨bytes', -, ha', hl', -⟩
  · exact absurd hz hw
  · cases hn.symm.trans ha
  · cases ha'.symm.trans ha; exact e
  · cases ha'.symm.trans ha; omega

/-- Taking a message that gives no reading writes the buffer and logs the calls that fetched it, nothing else. -/
theorem takeMessage_rejected {bytes : List Byte} {s : State} (hwf : Memory.wf s.msg = true)
    (hnone : (validate s.cfg bytes).reading? = none) :
    takeMessage bytes s = { s with
      msg := Memory.writeBytes s.msg 0 bytes
      msgLen := bytes.length
      calls := s.calls ++ [.getData] ++ [.decoderReset] } := by
  simp [takeMessage_eq, s.message_setMessage bytes hwf, hnone]

/-- Settles O42: a rejection is `None` by definition, and STEP then writes what forwarding the sample writes, the buffer
and the log of calls. -/
theorem rejectedBuffersAreSilent : Obligations.RejectedBuffersAreSilent := by
  refine ⟨fun _ => rfl, fun now s bytes hwf hw ha hl hnone => ⟨_, exec_step_takes now hw ha hl, ?_⟩⟩
  rw [takeMessage_rejected (s := forwardSample _ s) hwf hnone]
  exact ⟨rfl, by simp [forwardSample_eq]⟩

end Sys2Proof.Machine
end

section
/-! What a completed STEP does with a sample (44_pipeline.md R191): the width is fed raw, and the bands decide `active`
alone (R192). -/

namespace Sys2Proof.Machine

/-- A completed STEP with a sample forwards it, and takes the message if the decoder completes one. -/
theorem exec_step_forwards {now : Word} {s t : State} (hw : s.slotWidth ≠ 0) (h : exec (.step now) s = .next t) :
    (s.decoder.answer = none ∧ t = forwardSample ⟨s.slotWidth, s.slotTime⟩ s) ∨
      ∃ bytes, s.decoder.answer = some bytes ∧ bytes.length ≤ s.cfg.msgMax ∧
        t = takeMessage bytes (forwardSample ⟨s.slotWidth, s.slotTime⟩ s) := by
  rcases execStep_cases now s with ⟨hz, -⟩ | ⟨-, ha, e⟩ | ⟨bytes, -, ha, hl, e⟩ | ⟨bytes, -, -, -, e⟩
  · exact absurd hz hw
  · cases e.symm.trans h; exact .inl ⟨ha, rfl⟩
  · cases e.symm.trans h; exact .inr ⟨bytes, ha, hl, rfl⟩
  · cases e.symm.trans h

/-- STEP on a sample that completes no message. -/
theorem exec_step_waits (now : Word) {s : State} (hw : s.slotWidth ≠ 0) (ha : s.decoder.answer = none) :
    exec (.step now) s = .next (forwardSample ⟨s.slotWidth, s.slotTime⟩ s) := by
  rcases execStep_cases now s with ⟨hz, -⟩ | ⟨-, -, e⟩ | ⟨bytes, -, ha', -⟩ | ⟨bytes, -, ha', -⟩
  · exact absurd hz hw
  · exact e
  · cases ha'.symm.trans ha
  · cases ha'.symm.trans ha

/-- The state with the classifier's four bands replaced (00_scope.md R11). -/
def State.withBands (s : State) (shortMin shortMax longMin longMax : Nat) : State :=
  { s with cfg := { s.cfg with
      shortMinUs := shortMin, shortMaxUs := shortMax, longMinUs := longMin, longMaxUs := longMax } }

/-- The state with another liveness output. -/
def State.withActive (s : State) (active : Bool) : State := { s with active := active }

/-- The bands reach a forwarded sample through its tag only, so they change `active` and nothing else. -/
theorem forwardSample_withBands (p : PulseSample) (s : State) (a b c d : Nat) :
    forwardSample p (s.withBands a b c d) =
      ((forwardSample p s).withBands a b c d).withActive
        (classifyTag (s.withBands a b c d).cfg p.widthUs != .invalid) := rfl

/-- Taking a message looks at neither the bands nor `active`. -/
theorem takeMessage_withBands_withActive (bytes : List Byte) (s : State) (a b c d : Nat) (active : Bool) :
    takeMessage bytes ((s.withBands a b c d).withActive active) =
      ((takeMessage bytes s).withBands a b c d).withActive active := by
  simp only [takeMessage_eq]
  rfl

/-- A completed STEP with a sample logs the call that feeds the raw width. -/
theorem exec_step_feeds {now : Word} {s t : State} (hw : s.slotWidth ≠ 0) (h : exec (.step now) s = .next t) :
    ∃ before after, t.calls = s.calls ++ before ++ [.feed s.slotWidth] ++ after := by
  refine ⟨[.enterCriticalSection, .exitCriticalSection], ?_⟩
  rcases exec_step_forwards hw h with ⟨-, rfl⟩ | ⟨bytes, -, -, rfl⟩
  · exact ⟨[], by simp [forwardSample_eq]⟩
  · exact ⟨[.getData, .decoderReset], by simp [takeMessage_eq, forwardSample_eq]⟩

/-- With other bands a completed STEP with a sample completes in the same state, `active` apart. -/
theorem exec_step_withBands {now : Word} {s t : State} (hw : s.slotWidth ≠ 0) (h : exec (.step now) s = .next t)
    (a b c d : Nat) :
    ∃ active, exec (.step now) (s.withBands a b c d) = .next ((t.withBands a b c d).withActive active) := by
  refine ⟨classifyTag (s.withBands a b c d).cfg s.slotWidth != .invalid, ?_⟩
  rcases exec_step_forwards hw h with ⟨ha, rfl⟩ | ⟨bytes, ha, hl, rfl⟩
  · rw [exec_step_waits now (s := s.withBands a b c d) hw ha]
    exact congrArg _ (forwardSample_withBands _ s a b c d)
  · rw [exec_step_takes now (s := s.withBands a b c d) hw ha hl, ← takeMessage_withBands_withActive]
    exact congrArg (Host.Outcome.next ∘ takeMessage bytes) (forwardSample_withBands _ s a b c d)

/-- Settles O47: the width goes to `feed` before the decoder's answer is looked at, and only `active` is computed from
the bands. -/
theorem everyDrainedWidthIsFed : Obligations.EveryDrainedWidthIsFed :=
  ⟨fun _ _ _ => exec_step_feeds, fun _ _ _ a b c d hw h => exec_step_withBands hw h a b c d⟩

end Sys2Proof.Machine
end

section
/-! Which operations emit a reading, and when (44_pipeline.md R193). -/

namespace Sys2Proof.Machine

/-- An operation other than STEP and RESET appends at most one event, and no reading. -/
theorem exec_noReading {i : Instr} {s t : State} (hs : ∀ now, i ≠ .step now) (hr : i ≠ .reset)
    (h : exec i s = .next t) :
    ∃ new, t.events = s.events ++ new ∧ new.length ≤ 1 ∧ ∀ r, Event.reading r ∉ new := by
  cases i with
  | step now => exact absurd rfl (hs now)
  | reset => exact absurd rfl hr
  | poll now rssi =>
    rcases execPoll_events h with e | ⟨elapsed, e⟩
    · exact ⟨[], by simp [e], by simp, by simp⟩
    · exact ⟨_, e, by simp, by simp⟩
  | hbeat now => cases h; exact ⟨_, rfl, by simp, by simp⟩
  | nop | edge _ | drain | classify _ | idlechk _ | validate =>
    cases h; exact ⟨[], (List.append_nil _).symm, by simp, by simp⟩

/-- A completed STEP appends at most one event: the reading VALIDATE gives for the message that the decoder completed
with the drained width. -/
theorem exec_step_reading_iff {now : Word} {s t : State} (hwf : Memory.wf s.msg = true)
    (h : exec (.step now) s = .next t) :
    ∃ new, t.events = s.events ++ new ∧ new.length ≤ 1 ∧ ∀ r, Event.reading r ∈ new ↔
      s.slotWidth ≠ 0 ∧ ∃ bytes, s.decoder.answer = some bytes ∧ (validate s.cfg bytes).reading? = some r := by
  rcases execStep_cases now s with ⟨hz, e⟩ | ⟨-, ha, e⟩ | ⟨bytes, hw, ha, -, e⟩ | ⟨bytes, -, -, -, e⟩
  · cases e.symm.trans h; exact ⟨[], (List.append_nil _).symm, by simp, by simp [hz]⟩
  · cases e.symm.trans h; exact ⟨[], (List.append_nil _).symm, by simp, by simp [ha]⟩
  · cases e.symm.trans h
    refine ⟨_, takeMessage_events bytes (forwardSample _ s) hwf, Option.length_toList_le, fun r => ?_⟩
    rw [Verdict.reading_mem_toList_iff]
    simp [hw, ha, forwardSample_eq]
  · cases e.symm.trans h

/-- Settles O48: STEP is the one operation that emits a reading, and it emits what VALIDATE finds in the completed
message. -/
theorem readingsComeFromAcceptedBuffers : Obligations.ReadingsComeFromAcceptedBuffers := by
  intro i s t hwf hr h
  by_cases hs : ∃ now, i = .step now
  · obtain ⟨now, rfl⟩ := hs
    obtain ⟨new, hnew, hlen, hread⟩ := exec_step_reading_iff hwf h
    exact ⟨new, hnew, hlen, fun r => by rw [hread r]; exact (and_iff_right ⟨now, rfl⟩).symm⟩
  · obtain ⟨new, hnew, hlen, hread⟩ := exec_noReading (fun now e => hs ⟨now, e⟩) hr h
    exact ⟨new, hnew, hlen, fun r => iff_of_false (hread r) fun hstep => hs hstep.1⟩

end Sys2Proof.Machine
end

section
/-! The event word by its fields (30_encoding.md R81 to R84): encoding and decoding undo each other, and the words of a
row of the opcode map. -/

namespace Sys2Proof

open Laws.FieldsOfWord (opOf operandA operandB)

/-- Two event words with the same three fields are the same word. -/
theorem EventWord.ext_fields_iff (w v : EventWord) :
    w = v ↔ EventWord.op w = EventWord.op v ∧ EventWord.fieldA w = EventWord.fieldA v ∧
      EventWord.fieldB w = EventWord.fieldB v := by
  constructor
  · rintro rfl; exact ⟨rfl, rfl, rfl⟩
  · rintro ⟨hop, ha, hb⟩
    rw [← EventWord.pack_fields w, ← EventWord.pack_fields v, hop, ha, hb]

theorem encode_eq_pack (i : Instr) : encode i = EventWord.pack (opOf i) (operandA i) (operandB i) := by
  cases i <;> rfl

/-- A word with the three fields of an instruction is that instruction's word. -/
theorem eq_encode_iff_fields (w : EventWord) (i : Instr) :
    w = encode i ↔ EventWord.op w = opOf i ∧ EventWord.fieldA w = operandA i ∧ EventWord.fieldB w = operandB i := by
  rw [EventWord.ext_fields_iff, encode_eq_pack, EventWord.op_pack, EventWord.fieldA_pack, EventWord.fieldB_pack]

theorem decode_encode (i : Instr) : decode (encode i) = .ok i := by
  obtain ⟨hop, ha, hb⟩ := (eq_encode_iff_fields (encode i) i).1 rfl
  unfold decode decodeBare decodeWithA
  rw [hop, ha, hb]
  cases i <;> rfl

/-- A word accepted for an operation without operands has no other field than the operation code. -/
theorem eq_encode_of_decodeBare {i j : Instr} {w : EventWord} {op : BitVec 8} (h : decodeBare i w = .ok j)
    (hop : EventWord.op w = op) (hi : encode i = EventWord.pack op 0 0) : w = encode j := by
  unfold decodeBare at h
  split at h
  next h0 => cases h; rw [← EventWord.pack_fields w, hop, h0.1, h0.2, hi]
  next => cases h

/-- A word accepted for an operation with one operand carries that operand and nothing else. -/
theorem eq_encode_of_decodeWithA {mk : Word → Instr} {j : Instr} {w : EventWord} {op : BitVec 8}
    (h : decodeWithA mk w = .ok j) (hop : EventWord.op w = op) (hmk : ∀ a, encode (mk a) = EventWord.pack op a 0) :
    w = encode j := by
  unfold decodeWithA at h
  split at h
  next h0 => cases h; rw [hmk, ← hop, ← h0, EventWord.pack_fields]
  next => cases h

theorem eq_encode_of_decode {w : EventWord} {i : Instr} (h : decode w = .ok i) : w = encode i := by
  unfold decode at h
  split_ifs at h with h0 h1 h2 h3 h4 h5 h6 h7 h8 hFF
  · exact eq_encode_of_decodeBare h h0 rfl
  · exact eq_encode_of_decodeWithA h h1 fun _ => rfl
  · exact eq_encode_of_decodeBare h h2 rfl
  · cases h; rw [encode, ← h3, EventWord.pack_fields]
  · exact eq_encode_of_decodeWithA h h4 fun _ => rfl
  · exact eq_encode_of_decodeWithA h h5 fun _ => rfl
  · exact eq_encode_of_decodeWithA h h6 fun _ => rfl
  · exact eq_encode_of_decodeBare h h7 rfl
  · exact eq_encode_of_decodeWithA h h8 fun _ => rfl
  · exact eq_encode_of_decodeBare h hFF rfl

/-- A word decodes to an instruction exactly when it is that instruction's word. -/
theorem decode_eq_ok_iff (w : EventWord) (i : Instr) : decode w = .ok i ↔ w = encode i := by
  constructor
  · exact eq_encode_of_decode
  · rintro rfl; exact decode_encode i

/-- Settles O1: each field of an encoded instruction's word is the one the decoder looks for. -/
theorem decodeOfEncodeIsTheInstruction : Obligations.DecodeOfEncodeIsTheInstruction :=
  fun i _ => decode_encode i

/-- Settles O2: the decoder accepts a word only with the fields of the instruction's own word, and a word is its
fields. -/
theorem encodeOfDecodeIsTheWord : Obligations.EncodeOfDecodeIsTheWord :=
  fun w i h => ((decode_eq_ok_iff w i).1 h).symm

/-- Settles O5: each listed word is the encoding of the operation the table names. -/
theorem tableWordsDecodeAsListed : Obligations.TableWordsDecodeAsListed :=
  ⟨decode_encode .nop, decode_encode (.edge 1000), decode_encode (.edge 4294967295), decode_encode .drain,
    decode_encode (.poll 5000 180), decode_encode (.hbeat 5000), decode_encode (.classify 488),
    decode_encode (.idlechk 5000), decode_encode .validate, decode_encode (.step 5000), decode_encode .reset⟩

/-! ### The rows of the opcode map -/

/-- The words of an operation's row, by their fields (30_encoding.md R82, R83). -/
def InRow : LineName → EventWord → Prop
  | .nop, w => EventWord.op w = 0x00#8 ∧ EventWord.fieldA w = 0 ∧ EventWord.fieldB w = 0
  | .edge, w => EventWord.op w = 0x01#8 ∧ EventWord.fieldB w = 0
  | .drain, w => EventWord.op w = 0x02#8 ∧ EventWord.fieldA w = 0 ∧ EventWord.fieldB w = 0
  | .poll, w => EventWord.op w = 0x03#8
  | .hbeat, w => EventWord.op w = 0x04#8 ∧ EventWord.fieldB w = 0
  | .classify, w => EventWord.op w = 0x05#8 ∧ EventWord.fieldB w = 0
  | .idlechk, w => EventWord.op w = 0x06#8 ∧ EventWord.fieldB w = 0
  | .validate, w => EventWord.op w = 0x07#8 ∧ EventWord.fieldA w = 0 ∧ EventWord.fieldB w = 0
  | .step, w => EventWord.op w = 0x08#8 ∧ EventWord.fieldB w = 0
  | .reset, w => EventWord.op w = 0xFF#8 ∧ EventWord.fieldA w = 0 ∧ EventWord.fieldB w = 0
  | .take, _ => False
  | .loop, _ => False

/-- The instruction a word of a row stands for. -/
def rowInstr : LineName → EventWord → Instr
  | .nop, _ => .nop
  | .edge, w => .edge (EventWord.fieldA w)
  | .drain, _ => .drain
  | .poll, w => .poll (EventWord.fieldA w) (EventWord.fieldB w)
  | .hbeat, w => .hbeat (EventWord.fieldA w)
  | .classify, w => .classify (EventWord.fieldA w)
  | .idlechk, w => .idlechk (EventWord.fieldA w)
  | .validate, _ => .validate
  | .step, w => .step (EventWord.fieldA w)
  | .reset, _ => .reset
  | .take, _ => .drain
  | .loop, w => .step (EventWord.fieldA w)

/-- A word decodes to an operation of a row exactly when its fields are those of the row. -/
theorem decode_name_iff_inRow (n : LineName) (w : EventWord) :
    (∃ i, decode w = .ok i ∧ i.name = n) ↔ InRow n w := by
  constructor
  · rintro ⟨i, hd, rfl⟩
    obtain ⟨hop, ha, hb⟩ := (eq_encode_iff_fields w i).1 ((decode_eq_ok_iff w i).1 hd)
    cases i <;> simp_all [InRow, Instr.name, opOf, operandA, operandB]
  · intro h
    refine ⟨rowInstr n w, (decode_eq_ok_iff _ _).2 ((eq_encode_iff_fields _ _).2 ?_), ?_⟩
    · cases n <;> simp_all [InRow, rowInstr, opOf, operandA, operandB]
    · cases n with
      | take | loop => exact h.elim
      | nop | edge | drain | poll | hbeat | classify | idlechk | validate | step | reset => rfl

/-- `w & mask = match`, field by field. -/
theorem and_eq_iff_fields (w mask v : EventWord) :
    w &&& mask = v ↔ EventWord.op w &&& EventWord.op mask = EventWord.op v ∧
      EventWord.fieldA w &&& EventWord.fieldA mask = EventWord.fieldA v ∧
      EventWord.fieldB w &&& EventWord.fieldB mask = EventWord.fieldB v := by
  rw [EventWord.ext_fields_iff]
  simp only [EventWord.op, EventWord.fieldA, EventWord.fieldB, BitVec.extractLsb'_and]

/-- A row's mask and match ask for exactly the fields of the row. -/
theorem and_mask_eq_match_iff_inRow {r : OpcodeRow} (hr : r ∈ opcodeMap) (w : EventWord) :
    w &&& r.mask = r.matchBits ↔ InRow r.name w := by
  have all8 : ∀ b : BitVec 8, b &&& 255#8 = b := fun b => BitVec.and_allOnes
  have all32 : ∀ a : BitVec 32, a &&& 4294967295#32 = a := fun a => BitVec.and_allOnes
  rw [and_eq_iff_fields]
  simp only [opcodeMap, List.mem_cons, List.not_mem_nil, or_false] at hr
  rcases hr with rfl | rfl | rfl | rfl | rfl | rfl | rfl | rfl | rfl | rfl
  all_goals simp [InRow, EventWord.op, EventWord.fieldA, EventWord.fieldB, all8, all32]

/-- Settles O3: both sides say that the word's fields are those of the row. -/
theorem decodeSelectsExactlyTheMatchingRow : Obligations.DecodeSelectsExactlyTheMatchingRow :=
  fun r hr w => (decode_name_iff_inRow r.name w).trans (and_mask_eq_match_iff_inRow hr w).symm

/-! ### Reserved words -/

theorem decode_reservedOpcode {w : EventWord} (hlow : 0x09 ≤ (EventWord.op w).toNat)
    (hhigh : (EventWord.op w).toNat ≤ 0xFE) : decode w = .error .reservedOpcode := by
  have hne : ∀ b : BitVec 8, b.toNat < 0x09 ∨ b.toNat = 0xFF → EventWord.op w ≠ b := by
    rintro b hb rfl
    omega
  simp [decode, hne]

theorem EventWord.op_eq_ofNat {w : EventWord} {k : Nat} (h : (EventWord.op w).toNat = k) :
    EventWord.op w = BitVec.ofNat 8 k := by
  rw [← h, BitVec.ofNat_toNat, BitVec.setWidth_eq]

/-- An operation without operands and a field that is not 0. -/
theorem decode_bare_nonzero {w : EventWord} (hop : (EventWord.op w).toNat ∈ [0x00, 0x02, 0x07, 0xFF])
    (hne : EventWord.fieldA w ≠ 0 ∨ EventWord.fieldB w ≠ 0) : decode w = .error .nonzeroUnusedField := by
  have hbare : ∀ i, decodeBare i w = .error .nonzeroUnusedField := fun i => if_neg (by tauto)
  simp only [List.mem_cons, List.not_mem_nil, or_false] at hop
  rcases hop with h | h | h | h
  all_goals simp [decode, EventWord.op_eq_ofNat h, hbare]

/-- An operation that takes a time or a width only and a field `B` that is not 0. -/
theorem decode_withA_nonzero {w : EventWord} (hop : (EventWord.op w).toNat ∈ [0x01, 0x04, 0x05, 0x06, 0x08])
    (hne : EventWord.fieldB w ≠ 0) : decode w = .error .nonzeroUnusedField := by
  have hwithA : ∀ mk, decodeWithA mk w = .error .nonzeroUnusedField := fun mk => if_neg hne
  simp only [List.mem_cons, List.not_mem_nil, or_false] at hop
  rcases hop with h | h | h | h | h
  all_goals simp [decode, EventWord.op_eq_ofNat h, hwithA]

end Sys2Proof

namespace Sys2Proof.Machine

/-! ### One step on the next event word (30_encoding.md R81, R84; 70_reset_and_hazards.md R236) -/

theorem step_reservedWord {s : State} {w : EventWord} {rest : List EventWord} {e : DecodeError}
    (hc : s.cfg.legal = true) (hi : s.inbox = w :: rest) (hd : decode w = .error e) :
    step s = .refused (.reservedWord e) := by
  simp [step, State.nextEvent?, hc, hi, hd]

theorem step_decoded {s : State} {w : EventWord} {rest : List EventWord} {i : Instr}
    (hc : s.cfg.legal = true) (hi : s.inbox = w :: rest) (hd : decode w = .ok i) :
    step s = if s.mayRun i then exec i { s with inbox := rest } else .refused .illegalStart := by
  simp only [step, State.nextEvent?, hc, hi, hd, if_true]
  rfl

theorem State.mayRun_iff (s : State) (i : Instr) : s.mayRun i = true ↔ i = .reset ∨ s.startable = true := by
  simp [State.mayRun]

/-- Settles O4: the decoder answers each kind of reserved word with its reason, and the step refuses with it. -/
theorem reservedWordsAreRefused : Obligations.ReservedWordsAreRefused := by
  intro s w rest hc hi
  refine ⟨fun ⟨hlow, hhigh⟩ => ?_, fun hop hne => ?_, fun hop hne => ?_⟩
  · exact step_reservedWord hc hi (decode_reservedOpcode hlow hhigh)
  · exact step_reservedWord hc hi (decode_bare_nonzero hop hne)
  · exact step_reservedWord hc hi (decode_withA_nonzero hop hne)

/-- Settles O6: the word decodes and the operation may run. -/
theorem stepRunsTheDecodedOperation : Obligations.StepRunsTheDecodedOperation := by
  intro s w rest i hc hi hd hrun
  rw [step_decoded hc hi hd, if_pos ((s.mayRun_iff i).2 hrun)]

/-- Settles O7: the configuration is looked at first, then the input, then the state. -/
theorem stepOutsideItsDomain : Obligations.StepOutsideItsDomain := by
  refine ⟨fun s hc => ?_, fun s hc hi => ?_, fun s w rest i hc hi hd hne hstart => ?_⟩
  · simp [step, hc]
  · simp [step, State.nextEvent?, hc, hi]
  · have hrun : s.mayRun i ≠ true := by simp [s.mayRun_iff, hne, hstart]
    rw [step_decoded hc hi hd, if_neg hrun]

end Sys2Proof.Machine
end

section
/-! What a completed POLL and a completed STEP did, and the step lemma of the invariant (70_reset_and_hazards.md R236):
the window's registers, the message buffer and the widths of the registers, each on its own. -/

namespace Sys2Proof.Machine

/-- The four things a completed POLL can have done (41_window.md R122). -/
theorem exec_poll_inversion {now : Word} {rssi : Byte} {s t : State} (h : exec (.poll now rssi) s = .next t) :
    (s.winState = .capturing ∧ countUp s.cfg.pollCntBits s.pollCount = s.cfg.capturePolls ∧
      t = closeWindow now { s with pollCount := countUp s.cfg.pollCntBits s.pollCount }) ∨
    (s.winState = .capturing ∧ countUp s.cfg.pollCntBits s.pollCount ≠ s.cfg.capturePolls ∧
      t = { s with pollCount := countUp s.cfg.pollCntBits s.pollCount }) ∨
    (s.winState = .idle ∧ rssi.toNat ≤ s.cfg.rssiThreshold ∧ t = openWindow now rssi (s.call [.readRssi])) ∨
    (s.winState = .idle ∧ s.cfg.rssiThreshold < rssi.toNat ∧ t = s.call [.readRssi]) := by
  have hcases := execPoll_cases now rssi s
  rw [show execPoll now rssi s = .next t from h] at hcases
  simpa only [Host.Outcome.next.injEq] using hcases

/-- The three things a completed STEP can have done (44_pipeline.md R191). -/
theorem exec_step_inversion {now : Word} {s t : State} (h : exec (.step now) s = .next t) :
    (s.slotWidth = 0 ∧ t = idleEffect now s.clearSlot) ∨
    (s.slotWidth ≠ 0 ∧ s.decoder.answer = none ∧ t = forwardSample ⟨s.slotWidth, s.slotTime⟩ s) ∨
    (∃ bytes, s.slotWidth ≠ 0 ∧ s.decoder.answer = some bytes ∧ bytes.length ≤ s.cfg.msgMax ∧
      t = takeMessage bytes (forwardSample ⟨s.slotWidth, s.slotTime⟩ s)) := by
  have hcases := execStep_cases now s
  rw [show execStep now s = .next t from h] at hcases
  simpa using hcases

/-- No operation writes the configuration (00_scope.md R11). -/
theorem exec_cfg {i : Instr} {s t : State} (h : exec i s = .next t) : t.cfg = s.cfg := by
  cases i with
  | poll now rssi =>
    rcases exec_poll_inversion h with ⟨-, -, rfl⟩ | ⟨-, -, rfl⟩ | ⟨-, -, rfl⟩ | ⟨-, -, rfl⟩ <;> rfl
  | step now =>
    rcases exec_step_inversion h with ⟨-, rfl⟩ | ⟨-, -, rfl⟩ | ⟨bytes, -, -, -, rfl⟩
    · rfl
    · rfl
    · rw [takeMessage_cfg]; rfl
  | nop | edge _ | drain | hbeat _ | classify _ | idlechk _ | validate | reset => cases h; rfl

/-! ### The three parts of the invariant -/

/-- The trigger line and the poll count agree with the window (70_reset_and_hazards.md R236). -/
def State.WindowOk (s : State) : Prop :=
  (s.trigOut = true ↔ s.winState = .capturing) ∧ (s.winState = .idle → s.pollCount = 0) ∧
    (s.winState = .capturing → s.pollCount < s.cfg.capturePolls)

/-- The message fits, and the buffer is in canonical form inside its index space (20_memory.md R59). -/
def State.BufferOk (s : State) : Prop :=
  s.msgLen ≤ s.cfg.msgMax ∧ Memory.wf s.msg = true ∧ Memory.within s.cfg.msgMax s.msg = true

/-- Every register is within its width (10_state.md R20, log 3). -/
def State.RegistersFit (s : State) : Prop :=
  s.slotWidth < 2 ^ s.cfg.tsBits ∧ s.slotTime < 2 ^ s.cfg.tsBits ∧ s.lastEdgeUs < 2 ^ s.cfg.tsBits ∧
    s.openUs < 2 ^ s.cfg.tsBits ∧ s.edgeCount < 2 ^ s.cfg.edgeCntBits ∧ s.pollCount < 2 ^ s.cfg.pollCntBits

theorem State.fits_iff (s : State) : s.fits = true ↔ s.RegistersFit := by
  simp [State.fits, State.RegistersFit, and_assoc]

theorem State.startable_iff (s : State) :
    s.startable = true ↔ s.WindowOk ∧ s.msgLen ≤ s.cfg.msgMax ∧ s.RegistersFit := by
  rw [State.startable, Bool.and_eq_true, Bool.and_eq_true, Bool.and_eq_true, s.fits_iff, State.WindowOk, beq_iff_eq,
    Bool.eq_iff_iff, beq_iff_eq]
  cases s.winState <;> simp [and_assoc]

theorem State.inv_iff (s : State) :
    s.inv = true ↔ s.cfg.legal = true ∧ s.WindowOk ∧ s.BufferOk ∧ s.RegistersFit := by
  rw [State.inv, Bool.and_eq_true, Bool.and_eq_true, Bool.and_eq_true, s.startable_iff, State.BufferOk]
  tauto

/-- A legal window takes at least one poll, and its count fits the poll counter (00_scope.md R12). -/
theorem Config.capturePolls_of_legal {c : Config} (h : c.legal = true) :
    1 ≤ c.capturePolls ∧ c.capturePolls < 2 ^ c.pollCntBits := by
  simp only [Config.legal, Config.pollsOk, Bool.and_eq_true, decide_eq_true_eq] at h
  exact h.1.1.2

/-! ### Every operation keeps each part -/

theorem exec_keeps_windowOk {i : Instr} {s t : State} (hc : s.cfg.legal = true) (hs : s.WindowOk)
    (h : exec i s = .next t) : t.WindowOk := by
  cases i with
  | poll now rssi =>
    rcases exec_poll_inversion h with ⟨-, -, rfl⟩ | ⟨hw, hne, rfl⟩ | ⟨-, -, rfl⟩ | ⟨-, -, rfl⟩
    · exact ⟨by simp [closeWindow_eq], fun _ => rfl, by simp [closeWindow_eq]⟩
    · obtain ⟨htrig, -, hcount⟩ := hs
      have hle : countUp s.cfg.pollCntBits s.pollCount ≤ s.pollCount + 1 := Nat.mod_le _ _
      have hlt := hcount hw
      exact ⟨htrig, by simp [hw], fun _ => lt_of_le_of_ne (hle.trans hlt) hne⟩
    · exact ⟨by simp [openWindow_eq], by simp [openWindow_eq], fun _ => (Config.capturePolls_of_legal hc).1⟩
    · exact hs
  | step now =>
    rcases exec_step_inversion h with ⟨-, rfl⟩ | ⟨-, -, rfl⟩ | ⟨bytes, -, -, -, rfl⟩
    · exact hs
    · exact hs
    · rw [takeMessage_eq]; exact hs
  | reset => cases h; exact ⟨by simp, fun _ => rfl, by simp⟩
  | nop | edge _ | drain | hbeat _ | classify _ | idlechk _ | validate => cases h; exact hs

theorem exec_keeps_bufferOk {i : Instr} {s t : State} (hs : s.BufferOk) (h : exec i s = .next t) : t.BufferOk := by
  cases i with
  | poll now rssi =>
    rcases exec_poll_inversion h with ⟨-, -, rfl⟩ | ⟨-, -, rfl⟩ | ⟨-, -, rfl⟩ | ⟨-, -, rfl⟩ <;> exact hs
  | step now =>
    rcases exec_step_inversion h with ⟨-, rfl⟩ | ⟨-, -, rfl⟩ | ⟨bytes, -, -, hlen, rfl⟩
    · exact hs
    · exact hs
    · obtain ⟨-, hwf, hin⟩ := hs
      rw [takeMessage_eq]
      exact ⟨hlen, Memory.writeBytes_wf _ 0 bytes hwf,
        Memory.writeBytes_within _ _ 0 bytes (by rwa [Nat.zero_add]) hin⟩
  | reset => cases h; exact ⟨Nat.zero_le _, rfl, rfl⟩
  | nop | edge _ | drain | hbeat _ | classify _ | idlechk _ | validate => cases h; exact hs

theorem exec_keeps_registersFit {i : Instr} {s t : State} (hs : s.RegistersFit) (h : exec i s = .next t) :
    t.RegistersFit := by
  obtain ⟨hwidth, htime, hlast, hopen, hedges, hpolls⟩ := hs
  have hzero : ∀ bits : Nat, 0 < 2 ^ bits := Nat.two_pow_pos
  cases i with
  | edge now =>
    cases h
    exact ⟨interval_lt _ _ _, stamp_lt _ _, stamp_lt _ _, hopen, countUp_lt _ _, hpolls⟩
  | poll now rssi =>
    rcases exec_poll_inversion h with ⟨-, -, rfl⟩ | ⟨-, -, rfl⟩ | ⟨-, -, rfl⟩ | ⟨-, -, rfl⟩
    · exact ⟨hwidth, htime, hlast, hopen, hedges, hzero _⟩
    · exact ⟨hwidth, htime, hlast, hopen, hedges, countUp_lt _ _⟩
    · exact ⟨hzero _, hzero _, hlast, stamp_lt _ _, hzero _, hzero _⟩
    · exact ⟨hwidth, htime, hlast, hopen, hedges, hpolls⟩
  | step now =>
    rcases exec_step_inversion h with ⟨-, rfl⟩ | ⟨-, -, rfl⟩ | ⟨bytes, -, -, -, rfl⟩
    · exact ⟨hzero _, htime, hlast, hopen, hedges, hpolls⟩
    · exact ⟨hzero _, htime, hlast, hopen, hedges, hpolls⟩
    · rw [takeMessage_eq]
      exact ⟨hzero _, htime, hlast, hopen, hedges, hpolls⟩
  | drain => cases h; exact ⟨hzero _, htime, hlast, hopen, hedges, hpolls⟩
  | reset => cases h; exact ⟨hzero _, hzero _, hzero _, hzero _, hzero _, hzero _⟩
  | nop | hbeat _ | classify _ | idlechk _ | validate =>
    cases h; exact ⟨hwidth, htime, hlast, hopen, hedges, hpolls⟩

theorem exec_keeps_inv {i : Instr} {s t : State} (hs : s.inv = true) (h : exec i s = .next t) : t.inv = true := by
  obtain ⟨hc, hwindow, hbuffer, hfit⟩ := s.inv_iff.1 hs
  exact t.inv_iff.2 ⟨exec_cfg h ▸ hc, exec_keeps_windowOk hc hwindow h, exec_keeps_bufferOk hbuffer h,
    exec_keeps_registersFit hfit h⟩

/-- A step that completes runs an operation, or nothing when no event is waiting. -/
theorem step_keeps_inv {s t : State} (hs : s.inv = true) (h : step s = .next t) : t.inv = true ∧ t.cfg = s.cfg := by
  obtain ⟨hc, -⟩ := s.inv_iff.1 hs
  rcases step_cases s hc with ⟨-, e⟩ | ⟨w, rest, er, -, -, e⟩ | ⟨w, rest, i, -, -, -, e⟩ | ⟨w, rest, i, -, -, -, e⟩
  · cases e.symm.trans h; exact ⟨hs, rfl⟩
  · cases e.symm.trans h
  · have hi := e.symm.trans h
    exact ⟨exec_keeps_inv (s := { s with inbox := rest }) hs hi, exec_cfg (s := { s with inbox := rest }) hi⟩
  · cases e.symm.trans h

/-- Settles O58: every operation keeps the window's part, the buffer's part and the widths, and the configuration. -/
theorem everyStepKeepsTheInvariant : Obligations.EveryStepKeepsTheInvariant := by
  intro s t hs h
  obtain ⟨ht, hcfg⟩ := step_keeps_inv hs h
  obtain ⟨-, ⟨htrig, hidle, hopen⟩, ⟨hlen, hwf, -⟩, hfit⟩ := t.inv_iff.1 ht
  exact ⟨ht, hcfg, htrig, hidle, hopen, hlen, hwf, hfit⟩

/-- Settles O57: every conjunct of the invariant is computed on the reset state. -/
theorem resetSatisfiesTheInvariant : Obligations.ResetSatisfiesTheInvariant := by
  unfold Obligations.ResetSatisfiesTheInvariant
  decide

/-- Settles O56: RESET is the update its rule lists. -/
theorem resetGivesTheResetState : Obligations.ResetGivesTheResetState :=
  ⟨fun _ => rfl, rfl, rfl, rfl, rfl, rfl, rfl, rfl, rfl, rfl, rfl, fun _ => rfl, rfl, rfl, rfl⟩

end Sys2Proof.Machine
end

section
/-! Listing lines (30_encoding.md R87, R88), the packing of a reading (R78), the directives (R88) and boot
(70_reset_and_hazards.md R240). -/

namespace Sys2Proof.Machine

/-- The operands of an instruction are within the bounds of its line. -/
theorem listing_wellFormed (i : Instr) : (listing i).wellFormed = true := by
  have hword : ∀ a : Word, a.toNat < 4294967296 := fun a => a.isLt
  have hbyte : ∀ b : Byte, b.toNat < 256 := fun b => b.isLt
  cases i <;> simp [listing, Line.wellFormed, Line.arityOk, Line.rangeOk, LineName.bounds, hword, hbyte]

theorem assemble_listing (i : Instr) : assemble (listing i) = some [i] := by
  rw [assemble, if_pos (listing_wellFormed i)]
  cases i <;> simp [listing]

/-- `LOOP now, rssi` has the operands of POLL. -/
theorem assemble_loop (now : Word) (rssi : Byte) :
    assemble ⟨.loop, [now.toNat, rssi.toNat]⟩ = some (loopIteration now rssi) := by
  have hwf : (⟨.loop, [now.toNat, rssi.toNat]⟩ : Line).wellFormed = true := listing_wellFormed (.poll now rssi)
  rw [assemble, if_pos hwf]
  simp

/-- Settles O8: every line is well formed, and its operands read back as they were. -/
theorem listingLinesAssemble : Obligations.ListingLinesAssemble :=
  ⟨assemble_listing, rfl, assemble_loop⟩

/-- Settles O9: a field lies above what is appended after it and below what is appended before it. -/
theorem packedReadingHoldsItsFields : Obligations.PackedReadingHoldsItsFields := by
  intro r
  unfold DecodedReading.pack
  refine ⟨?_, ?_, ?_, ?_, ?_, ?_, ?_⟩
  · iterate 6 rw [BitVec.extractLsb'_append_eq_of_le (by decide)]
    exact BitVec.extractLsb'_eq_self
  · iterate 5 rw [BitVec.extractLsb'_append_eq_of_le (by decide)]
    exact BitVec.extractLsb'_append_eq_right
  · iterate 4 rw [BitVec.extractLsb'_append_eq_of_le (by decide)]
    exact BitVec.extractLsb'_append_eq_right
  · iterate 3 rw [BitVec.extractLsb'_append_eq_of_le (by decide)]
    exact BitVec.extractLsb'_append_eq_right
  · iterate 2 rw [BitVec.extractLsb'_append_eq_of_le (by decide)]
    exact BitVec.extractLsb'_append_eq_right
  · rw [BitVec.getLsbD_append, if_neg (by decide), BitVec.getLsbD_append, if_pos (by decide)]
    simp
  · exact BitVec.extractLsb'_append_eq_right

/-! ### Directives and boot -/

/-- The scripted answer is the next one, whatever the oracle was (30_encoding.md R88). -/
@[simp] theorem Decoder.answer_scriptNext (d : Decoder) (bytes : List Byte) :
    (d.scriptNext bytes).answer = some bytes := by
  cases d <;> rfl

/-- Only a feed moves the oracle on (44_pipeline.md R190). -/
theorem exec_decoder {i : Instr} {s t : State} (h : exec i s = .next t) :
    t.decoder = s.decoder ∨ t.decoder = s.decoder.advance := by
  cases i with
  | poll now rssi =>
    rcases exec_poll_inversion h with ⟨-, -, rfl⟩ | ⟨-, -, rfl⟩ | ⟨-, -, rfl⟩ | ⟨-, -, rfl⟩ <;> exact .inl rfl
  | step now =>
    rcases exec_step_inversion h with ⟨-, rfl⟩ | ⟨-, -, rfl⟩ | ⟨bytes, -, -, -, rfl⟩
    · exact .inl rfl
    · exact .inr rfl
    · rw [takeMessage_eq]; exact .inr rfl
  | nop | edge _ | drain | hbeat _ | classify _ | idlechk _ | validate | reset => cases h; exact .inl rfl

/-- Settles O59: each directive is one update, and an oracle with nothing scripted stays so. -/
theorem directivesSetUpTheEnvironment : Obligations.DirectivesSetUpTheEnvironment := by
  refine ⟨fun s bytes hwf hlen => ?_, fun s bytes hlen => ?_, fun s bytes => ?_, fun s bytes => ?_, ?_⟩
  · exact ⟨s.setMessage bytes, if_pos hlen, s.message_setMessage bytes hwf, rfl⟩
  · exact if_neg hlen.not_ge
  · exact ⟨_, rfl, Decoder.answer_scriptNext _ _, rfl⟩
  · exact ⟨rfl, _, rfl, rfl⟩
  · intro i s t hnone h
    have hstays : s.decoder.advance = s.decoder := by rw [hnone]; rfl
    exact (exec_decoder h).elim id fun e => e.trans hstays

/-- Settles O60: boot is RESET with calls added before and after RESET's own. -/
theorem bootAttachesTheInterruptLast : Obligations.BootAttachesTheInterruptLast :=
  fun _ hc => ⟨_, _, if_pos hc, rfl, rfl, rfl⟩

/-- Settles O51: NOP answers its state by definition. -/
theorem nopChangesNothing : Obligations.NopChangesNothing := fun _ => rfl

end Sys2Proof.Machine
end

section
/-! The effect of each operation of the producer, the window controller and the classifier (40_producer.md,
41_window.md, 42_classifier.md). -/

namespace Sys2Proof.Machine

/-- Settles O10: EDGE's whole effect, its width as an integer difference. -/
theorem edgeStoresIntervalAndCounts : Obligations.EdgeStoresIntervalAndCounts :=
  ⟨fun now s => ⟨_, exec_edge now s, interval_cast _ _ _⟩, stamp_default⟩

/-- DRAIN completes from every state, and this is its whole effect. -/
theorem exec_drain (s : State) : exec .drain s = .next { s with
    slotWidth := 0
    calls := s.calls ++ [.enterCriticalSection] ++ [.exitCriticalSection]
    result := .drained s.slotSample } := rfl

/-- Settles O14: what a drain returns is read before the width is cleared. -/
theorem drainTakesTheSample : Obligations.DrainTakesTheSample := by
  refine fun s => ⟨s.slotSample, ?_, s.slotSample_eq_none_iff.2, fun hw => (s.slotSample_eq_some_iff _).2 ⟨hw, rfl⟩⟩
  rw [exec_drain, List.append_assoc]
  rfl

/-! ### POLL -/

theorem exec_poll_completes (now : Word) (rssi : Byte) (s : State) : ∃ t, exec (.poll now rssi) s = .next t :=
  ⟨_, rfl⟩

/-- A POLL in a window that does not reach `CAPTURE_POLLS` counts. -/
theorem exec_poll_counts (now : Word) (rssi : Byte) {s : State} (hw : s.winState = .capturing)
    (hne : countUp s.cfg.pollCntBits s.pollCount ≠ s.cfg.capturePolls) :
    exec (.poll now rssi) s = .next { s with pollCount := countUp s.cfg.pollCntBits s.pollCount } := by
  obtain ⟨t, h⟩ := exec_poll_completes now rssi s
  rcases exec_poll_inversion h with ⟨-, heq, -⟩ | ⟨-, -, rfl⟩ | ⟨hidle, -⟩ | ⟨hidle, -⟩
  · exact absurd heq hne
  · exact h
  · cases hidle.symm.trans hw
  · cases hidle.symm.trans hw

/-- A POLL in a window that reaches `CAPTURE_POLLS` closes it. -/
theorem exec_poll_closes (now : Word) (rssi : Byte) {s : State} (hw : s.winState = .capturing)
    (heq : countUp s.cfg.pollCntBits s.pollCount = s.cfg.capturePolls) :
    exec (.poll now rssi) s = .next (closeWindow now s) := by
  obtain ⟨t, h⟩ := exec_poll_completes now rssi s
  rcases exec_poll_inversion h with ⟨-, -, rfl⟩ | ⟨-, hne, -⟩ | ⟨hidle, -⟩ | ⟨hidle, -⟩
  · exact h
  · exact absurd heq hne
  · cases hidle.symm.trans hw
  · cases hidle.symm.trans hw

/-- Settles O19: the opening poll's effect after its RSSI read, the calls in one list. -/
theorem openingPollRaisesTheTrigger : Obligations.OpeningPollRaisesTheTrigger := by
  intro now rssi s hidle hstrong
  rw [exec_poll_opens now hidle hstrong, openWindow_eq]
  simp [State.call, stamp]

/-- Settles O20: below its width the count does not wrap. -/
theorem pollInsideAWindowCounts : Obligations.PollInsideAWindowCounts := by
  intro now rssi s hw hfits hne
  have hcount : countUp s.cfg.pollCntBits s.pollCount = s.pollCount + 1 := Nat.mod_eq_of_lt hfits
  rw [exec_poll_counts now rssi hw (hcount ▸ hne), hcount]

/-- Settles O21: the closing poll's effect, its elapsed time as an integer difference. -/
theorem closingPollReleasesTheTrigger : Obligations.ClosingPollReleasesTheTrigger := by
  intro now rssi s hw hfits heq
  have hcount : countUp s.cfg.pollCntBits s.pollCount = s.pollCount + 1 := Nat.mod_eq_of_lt hfits
  exact ⟨_, exec_poll_closes now rssi hw (hcount.trans heq), interval_cast _ _ _⟩

/-- Settles O25: HBEAT reports the status bit of the window. -/
theorem heartbeatReportsTheWindow : Obligations.HeartbeatReportsTheWindow :=
  fun _ s => ⟨s.capturing, rfl, s.capturing_iff⟩

/-! ### CLASSIFY and IDLECHK -/

theorem classifyTag_short_iff (cfg : Config) (w : Nat) :
    classifyTag cfg w = .short ↔ cfg.shortMinUs ≤ w ∧ w ≤ cfg.shortMaxUs := by
  rw [← inBand_iff, classifyTag]
  split
  · simp [*]
  · split <;> simp [*]

/-- The bands of a legal configuration are disjoint, so a width in the long band is in no other
(00_scope.md R12). -/
theorem classifyTag_long_iff {cfg : Config} (hc : cfg.legal = true) (w : Nat) :
    classifyTag cfg w = .long ↔ cfg.longMinUs ≤ w ∧ w ≤ cfg.longMaxUs := by
  have hdisjoint : cfg.shortMaxUs < cfg.longMinUs := by
    simp only [Config.legal, Config.bandsOk, Bool.and_eq_true, decide_eq_true_eq] at hc
    omega
  rw [← inBand_iff, classifyTag]
  split
  next hshort =>
    have hnot : ¬ inBand cfg.longMinUs cfg.longMaxUs w = true := by
      rw [inBand_iff] at hshort ⊢
      omega
    simp [hnot]
  next => split <;> simp [*]

/-- Settles O26: the tag is decided by the two bands and `active` by the tag. -/
theorem classifyTagsByTheBands : Obligations.ClassifyTagsByTheBands := by
  intro w s hc
  exact ⟨classifyTag s.cfg w.toNat, classifyTag s.cfg w.toNat != .invalid, rfl, classifyTag_short_iff _ _,
    classifyTag_long_iff hc _, bne_iff_ne⟩

/-- The gap of the idle check as an integer difference (42_classifier.md R146). -/
theorem lineIdle_iff_lt_emod (now : Word) (s : State) :
    lineIdle now s = true ↔ (s.cfg.idleLimitUs : Int) < ((now.toNat : Int) - s.lastEdgeUs) % 2 ^ s.cfg.tsBits := by
  rw [lineIdle_iff, ← interval_cast, Nat.cast_lt]

/-- Settles O27: the comparison is on the integer difference, and an idle line clears `active`. -/
theorem idleCheckComparesTheGap : Obligations.IdleCheckComparesTheGap := by
  refine fun now s => ⟨lineIdle now s, if lineIdle now s then false else s.active, rfl, lineIdle_iff_lt_emod now s, ?_⟩
  cases lineIdle now s <;> simp

/-! ### STEP -/

/-- STEP on an empty slot. -/
theorem exec_step_empty (now : Word) {s : State} (hw : s.slotWidth = 0) :
    exec (.step now) s = .next (idleEffect now s.clearSlot) := by
  rcases execStep_cases now s with ⟨-, e⟩ | ⟨hw', -⟩ | ⟨bytes, hw', -⟩ | ⟨bytes, hw', -⟩
  · exact e
  · exact absurd hw hw'
  · exact absurd hw hw'
  · exact absurd hw hw'

/-- Settles O43: the slot is cleared, which changes no more than the log of calls, and the line checked. -/
theorem stepOnAnEmptySlotChecksIdle : Obligations.StepOnAnEmptySlotChecksIdle := by
  refine fun now s hw => ⟨if lineIdle now s then false else s.active, ?_, ?_⟩
  · rw [exec_step_empty now hw, idleEffect_eq]
    simp [State.clearSlot, State.crit, State.call, lineIdle, hw]
  · rw [← not_lt, ← lineIdle_iff_lt_emod]
    cases lineIdle now s <;> simp

/-- Settles O44: the sample is forwarded and nothing else done. -/
theorem stepFeedsTheDecoder : Obligations.StepFeedsTheDecoder := by
  refine fun now s hw ha => ⟨classifyTag s.cfg s.slotWidth != .invalid, ?_, bne_iff_ne⟩
  rw [exec_step_waits now hw ha, forwardSample_eq]
  simp

/-- Filling the buffer sets the bytes below the message's length and no other (20_memory.md R50). -/
theorem Memory.read_writeBytes_zero {m : Memory} (hwf : Memory.wf m = true) (bytes : List Byte) (a : Nat) :
    Memory.read (Memory.writeBytes m 0 bytes) a = if a < bytes.length then bytes.getD a 0 else Memory.read m a := by
  split
  next ha =>
    have hread := Memory.read_writeBytes_inside m 0 a bytes ha hwf
    rw [Nat.zero_add] at hread
    rw [hread, List.getD_eq_getElem _ _ ha]
  next ha => exact Memory.read_writeBytes_outside m 0 a bytes (.inr (by omega))

/-- Settles O45: the sample is forwarded and the message then taken, the validator seeing the bytes written. -/
theorem stepTakesACompletedMessage : Obligations.StepTakesACompletedMessage := by
  intro now s bytes hwf hw ha hlen
  refine ⟨classifyTag s.cfg s.slotWidth != .invalid, Memory.writeBytes s.msg 0 bytes, ?_, bne_iff_ne,
    Memory.read_writeBytes_zero hwf bytes⟩
  have hmsg : ((forwardSample ⟨s.slotWidth, s.slotTime⟩ s).setMessage bytes).message = bytes :=
    State.message_setMessage _ bytes hwf
  rw [exec_step_takes now hw ha hlen, takeMessage_eq, hmsg, forwardSample_eq]
  simp

/-- Every operation completes in a state whose decoder's next answer fits. -/
theorem exec_completes (i : Instr) {s : State} (hfits : s.answerFits) : ∃ t, exec i s = .next t := by
  cases i with
  | step now =>
    rcases execStep_cases now s with ⟨-, e⟩ | ⟨-, -, e⟩ | ⟨bytes, -, -, -, e⟩ | ⟨bytes, -, ha, hlen, -⟩
    · exact ⟨_, e⟩
    · exact ⟨_, e⟩
    · exact ⟨_, e⟩
    · exact absurd (hfits bytes ha) hlen.not_ge
  | nop | edge _ | drain | poll _ _ | hbeat _ | classify _ | idlechk _ | validate | reset => exact ⟨_, rfl⟩

/-- STEP refuses a completed message that does not fit (20_memory.md R50). -/
theorem exec_step_refuses (now : Word) {s : State} {bytes : List Byte} (hw : s.slotWidth ≠ 0)
    (ha : s.decoder.answer = some bytes) (hlen : s.cfg.msgMax < bytes.length) :
    exec (.step now) s = .refused (.messageTooLong bytes.length) := by
  rcases execStep_cases now s with ⟨hz, -⟩ | ⟨-, hn, -⟩ | ⟨bytes', -, ha', hl', -⟩ | ⟨bytes', -, ha', -, e⟩
  · exact absurd hz hw
  · cases hn.symm.trans ha
  · cases ha'.symm.trans ha; omega
  · cases ha'.symm.trans ha; exact e

/-- Settles O46: of STEP's cases one refuses, and no other operation has such a case. -/
theorem onlyTooLongAMessageIsRefused : Obligations.OnlyTooLongAMessageIsRefused :=
  ⟨fun now _ _ => exec_step_refuses now, fun i _ => exec_completes i⟩

end Sys2Proof.Machine
end

section
/-! Runs of operations and the pulse slot over them: the width of an interval (40_producer.md R107), the samples that
drains take (20_memory.md R57, R66) and the edge counter (40_producer.md R108). -/

namespace Sys2Proof.Machine

/-! ### Widths as true intervals -/

/-- Only what the earlier time is modulo `2^TS_BITS` matters. -/
theorem interval_cast_of_modEq {cfg : Config} (now : Word) {held earlier : Nat}
    (h : held ≡ earlier [MOD 2 ^ cfg.tsBits]) :
    (interval cfg now held : Int) = ((now.toNat : Int) - earlier) % 2 ^ cfg.tsBits := by
  have hmod : (held : Int) ≡ earlier [ZMOD 2 ^ cfg.tsBits] := by exact_mod_cast Int.natCast_modEq_iff.2 h
  rw [interval_cast]
  exact (Int.ModEq.refl _).sub hmod

/-- A timestamp is the true time modulo any width up to the clock's (20_memory.md R61). -/
theorem timestamp_modEq (t : Nat) {bits : Nat} (hbits : bits ≤ 32) : (timestamp t).toNat ≡ t [MOD 2 ^ bits] :=
  (Nat.mod_modEq t (2 ^ 32)).of_dvd (pow_dvd_pow 2 hbits)

/-- The width between two true times, the earlier one held modulo `2^TS_BITS` (40_producer.md R107). -/
theorem interval_timestamp {cfg : Config} {earlier later : Nat} (hbits : cfg.tsBits ≤ 32) (hle : earlier ≤ later) :
    interval cfg (timestamp later) ((timestamp earlier).toNat % 2 ^ cfg.tsBits) =
      (later - earlier) % 2 ^ cfg.tsBits := by
  have hearlier : (timestamp earlier).toNat % 2 ^ cfg.tsBits ≡ earlier [MOD 2 ^ cfg.tsBits] :=
    (Nat.mod_modEq _ _).trans (timestamp_modEq earlier hbits)
  have hlater : ((timestamp later).toNat : Int) ≡ later [ZMOD 2 ^ cfg.tsBits] := by
    exact_mod_cast Int.natCast_modEq_iff.2 (timestamp_modEq later hbits)
  have hcast : (interval cfg (timestamp later) ((timestamp earlier).toNat % 2 ^ cfg.tsBits) : Int) =
      ((later - earlier : Nat) : Int) % 2 ^ cfg.tsBits := by
    rw [interval_cast_of_modEq _ hearlier, Nat.cast_sub hle]
    exact hlater.sub_right _
  exact_mod_cast hcast

/-- Settles O12: the stored width is the true interval modulo `2^TS_BITS`. -/
theorem edgeWidthIsTheTrueInterval : Obligations.EdgeWidthIsTheTrueInterval := by
  intro earlier later s hbits hle hlast
  have hwidth := interval_timestamp hbits hle
  rw [← hlast] at hwidth
  refine ⟨_, exec_edge _ s, fun hlt => hwidth.trans (Nat.mod_eq_of_lt hlt), ?_⟩
  simp [State.slotEmpty, hwidth]

/-! ### Runs -/

/-- A completed run begins with a completed operation and goes on from its state. -/
theorem execAll_cons_inversion {i : Instr} {is : List Instr} {s t : State} (h : execAll (i :: is) s = .next t) :
    ∃ u, exec i s = .next u ∧ execAll is u = .next t := by
  cases hi : exec i s with
  | next u => exact ⟨u, rfl, execAll_cons is hi ▸ h⟩
  | fault f => cases f
  | refused r => simp [execAll, hi] at h

/-- What every operation of a run keeps, the run keeps. -/
theorem execAll_keeps {P : State → Prop} {ops : List Instr} {s t : State}
    (hstep : ∀ i ∈ ops, ∀ u v, P u → exec i u = .next v → P v) (hs : P s) (h : execAll ops s = .next t) : P t := by
  induction ops generalizing s with
  | nil => cases h; exact hs
  | cons i is ih =>
    obtain ⟨u, hu, ht⟩ := execAll_cons_inversion h
    exact ih (fun j hj => hstep j (List.mem_cons_of_mem i hj)) (hstep i List.mem_cons_self s u hs hu) ht

theorem everyIn_head {p : Instr → State → Bool} {i : Instr} {is : List Instr} {s : State}
    (h : everyIn p (i :: is) s = true) : p i s = true := by
  simp only [everyIn, Bool.and_eq_true] at h
  exact h.1

theorem everyIn_tail {p : Instr → State → Bool} {i : Instr} {is : List Instr} {s t : State}
    (h : everyIn p (i :: is) s = true) (hi : exec i s = .next t) : everyIn p is t = true := by
  rw [everyIn_cons p is hi, Bool.and_eq_true] at h
  exact h.2

/-! ### What drains take -/

theorem exec_step_slotWidth {now : Word} {s t : State} (h : exec (.step now) s = .next t) : t.slotWidth = 0 := by
  rcases exec_step_inversion h with ⟨-, rfl⟩ | ⟨-, -, rfl⟩ | ⟨bytes, -, -, -, rfl⟩
  · rfl
  · rfl
  · rw [takeMessage_eq]; rfl

/-- A POLL clears the slot or leaves it (40_producer.md R106). -/
theorem exec_poll_slot {now : Word} {rssi : Byte} {s t : State} (h : exec (.poll now rssi) s = .next t) :
    t.slotWidth = 0 ∨ t.slotSample = s.slotSample := by
  rcases exec_poll_inversion h with ⟨-, -, rfl⟩ | ⟨-, -, rfl⟩ | ⟨-, -, rfl⟩ | ⟨-, -, rfl⟩
  · exact .inr rfl
  · exact .inr rfl
  · exact .inl rfl
  · exact .inr rfl

/-- Only EDGE fills an empty slot. -/
theorem exec_keeps_emptySlot {i : Instr} {s t : State} (hi : i.name ≠ .edge) (hs : s.slotWidth = 0)
    (h : exec i s = .next t) : t.slotWidth = 0 := by
  cases i with
  | edge now => exact absurd rfl hi
  | step now => exact exec_step_slotWidth h
  | poll now rssi =>
    rw [← State.slotSample_eq_none_iff] at hs ⊢
    exact (exec_poll_slot h).elim t.slotSample_eq_none_iff.2 fun e => e.trans hs
  | drain | reset => cases h; rfl
  | nop | hbeat _ | classify _ | idlechk _ | validate => cases h; exact hs

theorem name_ne_edge_of_edgesIn {ops : List Instr} (h : edgesIn ops = 0) {i : Instr} (hi : i ∈ ops) :
    i.name ≠ .edge := by
  simpa using List.countP_eq_zero.1 h i hi

/-- Settles O15: a drain leaves the slot empty, and only EDGE fills it. -/
theorem drainAgainReturnsNone : Obligations.DrainAgainReturnsNone := by
  intro s t u between hedges ht hu
  obtain ⟨v, hv, ht⟩ := execAll_cons_inversion ht
  have hempty : v.slotWidth = 0 := by cases hv; rfl
  have htempty : t.slotWidth = 0 :=
    execAll_keeps (fun i hi _ _ => exec_keeps_emptySlot (name_ne_edge_of_edgesIn hedges hi)) hempty ht
  cases (exec_drain t).symm.trans hu
  exact congrArg Result.drained (t.slotSample_eq_none_iff.2 htempty)

theorem slotSample_toList_sublist (s : State) : s.slotSample.toList.Sublist [⟨s.slotWidth, s.slotTime⟩] := by
  unfold State.slotSample
  split <;> simp

/-- One operation: what it takes and what the slot then holds, of what the slot held and what it stores. -/
theorem exec_samples_sublist {i : Instr} {s t : State} (h : exec i s = .next t) :
    (sampleTaken i s ++ t.slotSample.toList).Sublist (s.slotSample.toList ++ sampleStored i s) := by
  cases i with
  | edge now =>
    cases h
    exact (slotSample_toList_sublist _).trans (List.sublist_append_right _ _)
  | drain =>
    cases h
    exact List.Sublist.refl _
  | poll now rssi =>
    rcases exec_poll_slot h with hw | hkept
    · simp [sampleTaken, t.slotSample_eq_none_iff.2 hw]
    · simp [sampleTaken, sampleStored, hkept]
  | step now =>
    rw [t.slotSample_eq_none_iff.2 (exec_step_slotWidth h)]
    exact List.Sublist.refl _
  | reset =>
    cases h
    exact List.nil_sublist _
  | nop | hbeat _ | classify _ | idlechk _ | validate =>
    cases h
    exact List.sublist_append_left _ _

theorem sampleTaken_sublist (i : Instr) (s : State) : (sampleTaken i s).Sublist s.slotSample.toList := by
  cases i with
  | drain | step _ => exact List.Sublist.refl _
  | nop | edge _ | poll _ _ | hbeat _ | classify _ | idlechk _ | validate | reset => exact List.nil_sublist _

/-- A whole run, the slot handed on from one operation to the next (20_memory.md R66). -/
theorem gather_sampleTaken_sublist (ops : List Instr) (s : State) :
    (gather sampleTaken ops s).Sublist (s.slotSample.toList ++ gather sampleStored ops s) := by
  induction ops generalizing s with
  | nil => exact List.nil_sublist _
  | cons i is ih =>
    cases hi : exec i s with
    | next t =>
      rw [gather_cons _ is hi, gather_cons _ is hi, ← List.append_assoc]
      have hrest := (List.Sublist.refl (sampleTaken i s)).append (ih t)
      rw [← List.append_assoc] at hrest
      exact hrest.trans ((exec_samples_sublist hi).append (List.Sublist.refl _))
    | fault f => cases f
    | refused r =>
      simp only [gather, hi, List.append_nil]
      exact (sampleTaken_sublist i s).trans (List.sublist_append_left _ _)

/-- Settles O16: each operation hands on what it does not take, and runs compose. -/
theorem drainedSamplesAreASubsequence : Obligations.DrainedSamplesAreASubsequence :=
  ⟨fun _ _ _ => exec_samples_sublist, gather_sampleTaken_sublist⟩

/-! ### Two edges before a drain -/

/-- The producer's registers and the configuration are the same in both states. -/
structure SameProducer (s t : State) : Prop where
  slotWidth : t.slotWidth = s.slotWidth
  slotTime : t.slotTime = s.slotTime
  edgeCount : t.edgeCount = s.edgeCount
  lastEdgeUs : t.lastEdgeUs = s.lastEdgeUs
  cfg : t.cfg = s.cfg

theorem SameProducer.trans {s t u : State} (h : SameProducer s t) (h' : SameProducer t u) : SameProducer s u where
  slotWidth := h'.slotWidth.trans h.slotWidth
  slotTime := h'.slotTime.trans h.slotTime
  edgeCount := h'.edgeCount.trans h.edgeCount
  lastEdgeUs := h'.lastEdgeUs.trans h.lastEdgeUs
  cfg := h'.cfg.trans h.cfg

/-- Operations that leave the slot complete, one after the other, with the producer as it was. -/
theorem execAll_leavesSlot {ops : List Instr} {s : State} (h : everyIn leavesSlot ops s = true) :
    ∃ t, execAll ops s = .next t ∧ SameProducer s t := by
  induction ops generalizing s with
  | nil => exact ⟨s, rfl, rfl, rfl, rfl, rfl, rfl⟩
  | cons i is ih =>
    obtain ⟨u, hu, hwidth, htime, hcount, hlast, hcfg⟩ := leavesSlot_next i s (everyIn_head h)
    obtain ⟨t, ht, hsame⟩ := ih (everyIn_tail h hu)
    exact ⟨t, (execAll_cons is hu).trans ht, .trans ⟨hwidth, htime, hcount, hlast, hcfg⟩ hsame⟩

/-- Two steps of a counter. -/
theorem countUp_countUp (bits count : Nat) : countUp bits (countUp bits count) = (count + 2) % 2 ^ bits :=
  Nat.mod_add_mod (count + 1) (2 ^ bits) 1

/-- Settles O13: the second EDGE overwrites the slot, its width counts from the first, and what drains take is a
subsequence of what the slot holds and what is stored later. -/
theorem laterEdgeOverwritesTheSlot : Obligations.LaterEdgeOverwritesTheSlot := by
  intro t1 t2 between after s
  refine ⟨_, exec_edge t1 s, fun hbetween => ?_⟩
  obtain ⟨b, hb, hab⟩ := execAll_leavesSlot hbetween
  refine ⟨b, hb, _, exec_edge t2 b, fun hafter => ?_⟩
  obtain ⟨u, hu, hcu⟩ := execAll_leavesSlot hafter
  have hcfg : b.cfg = s.cfg := hab.cfg
  have hlast : b.lastEdgeUs = stamp s.cfg t1 := hab.lastEdgeUs
  have hcount : b.edgeCount = countUp s.cfg.edgeCntBits s.edgeCount := hab.edgeCount
  have huwidth : u.slotWidth = interval s.cfg t2 (stamp s.cfg t1) := by rw [hcu.slotWidth, hcfg, hlast]
  have hutime : u.slotTime = stamp s.cfg t2 := by rw [hcu.slotTime, hcfg]
  have hucount : u.edgeCount = (s.edgeCount + 2) % 2 ^ s.cfg.edgeCntBits := by
    rw [hcu.edgeCount, hcfg, hcount, countUp_countUp]
  refine ⟨u, hu, hucount, interval s.cfg t2 (stamp s.cfg t1), interval_cast_of_modEq t2 (Nat.mod_modEq _ _), ?_, ?_⟩
  · intro hne
    have hsample : u.slotSample = some ⟨interval s.cfg t2 (stamp s.cfg t1), stamp s.cfg t2⟩ :=
      (u.slotSample_eq_some_iff _).2 ⟨huwidth ▸ hne, by rw [huwidth, hutime]⟩
    exact ⟨_, exec_drain u, congrArg Result.drained hsample⟩
  · intro later
    have hslot := slotSample_toList_sublist u
    rw [huwidth, hutime] at hslot
    exact (gather_sampleTaken_sublist later u).trans (hslot.append (List.Sublist.refl _))

/-! ### The edge counter -/

theorem exec_clearsProducer {i : Instr} {s t : State} (hclear : clearsProducer i s = true) (h : exec i s = .next t) :
    t.edgeCount = 0 := by
  cases i with
  | poll now rssi =>
    obtain ⟨hidle, hstrong⟩ := (clearsProducer_poll now rssi s).1 hclear
    cases (exec_poll_opens now hidle hstrong).symm.trans h
    rfl
  | reset => cases h; rfl
  | nop | edge _ | drain | hbeat _ | classify _ | idlechk _ | validate | step _ => cases hclear

/-- Where ProducerClear does not run, EDGE counts and nothing else changes the counter. -/
theorem exec_keepsProducer {i : Instr} {s t : State} (hkeep : keepsProducer i s = true) (h : exec i s = .next t) :
    t.edgeCount = if i.name = .edge then countUp s.cfg.edgeCntBits s.edgeCount else s.edgeCount := by
  cases i with
  | poll now rssi =>
    rcases exec_poll_inversion h with ⟨-, -, rfl⟩ | ⟨-, -, rfl⟩ | ⟨hidle, hstrong, -⟩ | ⟨-, -, rfl⟩
    · rfl
    · rfl
    · simp [keepsProducer, (clearsProducer_poll now rssi s).2 ⟨hidle, hstrong⟩] at hkeep
    · rfl
  | step now =>
    rcases exec_step_inversion h with ⟨-, rfl⟩ | ⟨-, -, rfl⟩ | ⟨bytes, -, -, -, rfl⟩
    · rfl
    · rfl
    · rw [takeMessage_eq]; rfl
  | reset => cases hkeep
  | nop | edge _ | drain | hbeat _ | classify _ | idlechk _ | validate => cases h; rfl

theorem execAll_edgeCount {ops : List Instr} {s t : State} (hfits : s.edgeCount < 2 ^ s.cfg.edgeCntBits)
    (hkeep : everyIn keepsProducer ops s = true) (h : execAll ops s = .next t) :
    t.edgeCount = (s.edgeCount + edgesIn ops) % 2 ^ s.cfg.edgeCntBits := by
  induction ops generalizing s with
  | nil => cases h; exact (Nat.mod_eq_of_lt hfits).symm
  | cons i is ih =>
    obtain ⟨u, hu, ht⟩ := execAll_cons_inversion h
    have hcount := exec_keepsProducer (everyIn_head hkeep) hu
    have hcfg := exec_cfg hu
    have hrest := ih (s := u)
    rw [hcfg, hcount] at hrest
    rw [edgesIn_cons]
    split at hrest
    next hedge =>
      rw [hrest (countUp_lt _ _) (everyIn_tail hkeep hu) ht, if_pos hedge, countUp, Nat.mod_add_mod]
      congr 1
      omega
    next hother => rw [hrest hfits (everyIn_tail hkeep hu) ht, if_neg hother, Nat.add_zero]

/-- No operation reads the edge counter (40_producer.md R108). -/
theorem exec_ignores_edgeCount {i : Instr} {s t : State} (count : Nat) (h : exec i s = .next t) :
    ∃ count', exec i { s with edgeCount := count } = .next { t with edgeCount := count' } := by
  cases i with
  | poll now rssi =>
    rcases exec_poll_inversion h with ⟨hw, hn, rfl⟩ | ⟨hw, hn, rfl⟩ | ⟨hw, hr, rfl⟩ | ⟨hw, hr, rfl⟩
    · exact ⟨count, exec_poll_closes now rssi (s := { s with edgeCount := count }) hw hn⟩
    · exact ⟨count, exec_poll_counts now rssi (s := { s with edgeCount := count }) hw hn⟩
    · exact ⟨0, exec_poll_opens now (s := { s with edgeCount := count }) hw hr⟩
    · exact ⟨count, exec_poll_stays now (s := { s with edgeCount := count }) hw hr⟩
  | step now =>
    refine ⟨count, ?_⟩
    rcases exec_step_inversion h with ⟨hw, rfl⟩ | ⟨hw, ha, rfl⟩ | ⟨bytes, hw, ha, hl, rfl⟩
    · exact exec_step_empty now (s := { s with edgeCount := count }) hw
    · exact exec_step_waits now (s := { s with edgeCount := count }) hw ha
    · rw [exec_step_takes now (s := { s with edgeCount := count }) hw ha hl, takeMessage_eq, takeMessage_eq]
      rfl
  | nop | edge _ | drain | hbeat _ | classify _ | idlechk _ | validate | reset => cases h; exact ⟨_, rfl⟩

/-- Settles O17: ProducerClear sets the counter to 0, EDGE alone counts, and no case of an operation looks at it. -/
theorem edgeCounterCountsEdges : Obligations.EdgeCounterCountsEdges :=
  ⟨fun _ _ _ => exec_clearsProducer, fun _ _ _ => execAll_edgeCount, fun _ _ _ count => exec_ignores_edgeCount count⟩

end Sys2Proof.Machine
end

section
/-! What VALIDATE reads (43_validator.md R155, R158, R177), the numbers an accepted message gives (R163, R165 to R168),
and messages with one bit flipped (R175). -/

namespace Sys2Proof.Machine

/-! ### The least lengths -/

/-- VALIDATE looks at no parameter but the two least lengths. -/
theorem validate_congr_cfg {cfg cfg' : Config} (hmin : cfg.minLen = cfg'.minLen)
    (hmin9 : cfg.minLen1A2D = cfg'.minLen1A2D) (m : List Byte) : validate cfg m = validate cfg' m := by
  have hlen : leastLength cfg = leastLength cfg' := by rw [leastLength, hmin, leastLength]
  have hlen9 : leastLength1A2D cfg = leastLength1A2D cfg' := by rw [leastLength1A2D, hmin9, leastLength1A2D]
  rw [validate, hlen, hlen9, validate]

/-- The message is the bytes below `MSG_LEN` (20_memory.md R52). -/
theorem State.message_congr {s s' : State} (hlen : s.msgLen = s'.msgLen)
    (hbytes : ∀ i, i < s.msgLen → Memory.read s.msg i = Memory.read s'.msg i) : s.message = s'.message := by
  rw [State.message, State.message, ← hlen]
  exact List.map_congr_left fun i hi => hbytes i (List.mem_range.1 hi)

/-- Settles O29: the message is all VALIDATE gets of the state, and the least lengths all it gets of the
parameters. -/
theorem validateIsAFunctionOfTheMessage : Obligations.ValidateIsAFunctionOfTheMessage := by
  refine ⟨fun _ => rfl, fun s s' hmin hmin9 hlen hbytes => ?_⟩
  rw [State.message_congr hlen hbytes, validate_congr_cfg hmin hmin9]

theorem validate_tooShort {cfg : Config} {m : List Byte} (h : m.length < leastLength cfg) :
    validate cfg m = .rejected .tooShort := if_pos h

/-- A message too short for type `0x1A2D` is too short or of another type. -/
theorem validate_tooShort1A2D {cfg : Config} {m : List Byte} (ht : sensorType m = type1A2D)
    (h : m.length < leastLength1A2D cfg) : validate cfg m = .rejected .tooShort := by
  rcases lt_or_ge m.length (leastLength cfg) with hlt | hge
  · exact validate_tooShort hlt
  · rw [validate, if_neg hge.not_gt, if_pos ht, if_pos h]

/-- Settles O39: each length check compares with the larger of the rule's number and the parameter. -/
theorem shortMessagesAreRejected : Obligations.ShortMessagesAreRejected :=
  fun _ _ => ⟨fun h => validate_tooShort (lt_max_iff.2 h.symm),
    fun h ht => validate_tooShort1A2D ht (lt_max_iff.2 h.symm)⟩

/-! ### Temperature and humidity -/

/-- `0x08` masks bit 3 (43_validator.md R166). -/
theorem and_eight_ne_zero_iff (b : Byte) : b &&& 0x08#8 ≠ 0 ↔ b.getLsbD 3 = true := by
  have hmask : (0x08#8 : Byte) = BitVec.twoPow 8 3 := rfl
  rw [hmask, BitVec.and_twoPow]
  cases b.getLsbD 3 <;> decide

/-- The 16 bits hold every three-digit magnitude with its sign. -/
theorem temperatureTenths_toInt (m : List Byte) :
    (temperatureTenths m).toInt =
      if (byteAt m 6).getLsbD 3 then -(temperatureMagnitude m : Int) else temperatureMagnitude m := by
  have hle := temperatureMagnitude_le m
  simp only [temperatureTenths, and_eight_ne_zero_iff]
  split
  · exact BitVec.toInt_ofInt_eq_self (by decide) (by omega) (by omega)
  · exact BitVec.toInt_ofInt_eq_self (by decide) (by omega) (by omega)

theorem temperatureMagnitude_eq (m : List Byte) :
    temperatureMagnitude m =
      ((byteAt m 5).toNat / 16 * 10 + (byteAt m 5).toNat % 16) * 10 + (byteAt m 4).toNat / 16 := by
  rw [temperatureMagnitude, highNibble_eq, highNibble_eq, lowNibble_eq]

/-- The 8 bits hold every two digits. -/
theorem humidityPercent_toNat {m : List Byte} (ht : sensorType m = type1A2D) :
    (humidityPercent m).toNat = (byteAt m 7).toNat % 16 * 10 + (byteAt m 6).toNat / 16 := by
  have hhigh := (byteAt m 6).isLt
  rw [humidityPercent, if_pos ht, lowNibble_eq, highNibble_eq, BitVec.toNat_ofNat, Nat.mod_eq_of_lt (by omega)]

theorem humidityPercent_eq_zero {m : List Byte} (ht : sensorType m ≠ type1A2D) : humidityPercent m = 0 :=
  if_neg ht

/-- Settles O36: an accepted message's reading is the extracted one, whose numbers fit their fields. -/
theorem temperatureAndHumidity : Obligations.TemperatureAndHumidity := by
  intro cfg m r h
  obtain ⟨rfl, -⟩ := validate_accepted h
  refine ⟨?_, humidityPercent_toNat, fun ht => humidityPercent_eq_zero ?_⟩
  · rintro _ rfl
    rw [← temperatureMagnitude_eq]
    exact temperatureTenths_toInt m
  · rw [show sensorType m = typeEA4C from ht]
    decide

/-- Settles O34: byte 6 as a whole is a nibble moved up, which leaves no low nibble and so no sign bit. -/
theorem acceptedEA4CIsNeverNegative : Obligations.AcceptedEA4CIsNeverNegative := by
  intro cfg m r h htype
  obtain ⟨rfl, -, ⟨ht, -, -⟩ | ⟨-, hsum⟩⟩ := validate_accepted h
  · exact absurd (htype.symm.trans ht) (by decide)
  obtain ⟨h6, h7⟩ := (checksumEA4C_iff m).1 hsum
  have hlow : (byteAt m 6).toNat % 16 = 0 := by omega
  have hcheck := (checkByteEA4C m).isLt
  have hsign : (byteAt m 6).getLsbD 3 = false := by
    rw [BitVec.getLsbD, Nat.testBit_eq_decide_div_mod_eq]
    simp only [decide_eq_false_iff_not]
    omega
  refine ⟨hlow, by omega, ?_⟩
  have htenths := temperatureTenths_toInt m
  rw [hsign] at htenths
  exact le_of_le_of_eq (Int.natCast_nonneg _) htenths.symm

/-! ### Bytes that are not read -/

theorem byteAt_eq_of_take_eq {m m' : List Byte} {n i : Nat} (h : m'.take n = m.take n) (hi : i < n) :
    byteAt m' i = byteAt m i := by
  have hget := congrArg (·.getD i 0) h
  simpa [byteAt, List.getD_eq_getElem?_getD, List.getElem?_take, hi] using hget

theorem nibbleSum_eq_of_take_eq {m m' : List Byte} {n lo hi : Nat} (h : m'.take n = m.take n) (hi' : hi ≤ n) :
    nibbleSum m' lo hi = nibbleSum m lo hi := by
  have htake : m'.take hi = m.take hi := by
    rw [← Nat.min_eq_left hi', ← List.take_take, h, List.take_take]
  rw [nibbleSum, nibbleSum, htake]

theorem sensorType_eq_of_take_eq {m m' : List Byte} {n : Nat} (h : m'.take n = m.take n) (hn : 2 ≤ n) :
    sensorType m' = sensorType m := by
  rw [sensorType, sensorType, byteAt_eq_of_take_eq h (by omega), byteAt_eq_of_take_eq h (by omega)]

/-- A reading is made of the first 8 bytes. -/
theorem extractReading_eq_of_take_eq {m m' : List Byte} {n : Nat} (h : m'.take n = m.take n) (hn : 8 ≤ n) :
    extractReading m' = extractReading m := by
  have hbyte : ∀ i < 8, byteAt m' i = byteAt m i := fun i hi => byteAt_eq_of_take_eq h (by omega)
  simp only [extractReading, channel, rollingCode, temperatureTenths, temperatureMagnitude, humidityPercent, batteryOk,
    sensorType_eq_of_take_eq h (by omega), hbyte 2 (by omega), hbyte 3 (by omega), hbyte 4 (by omega),
    hbyte 5 (by omega), hbyte 6 (by omega), hbyte 7 (by omega)]

theorem checksum1A2D_eq_of_take_eq {m m' : List Byte} (h : m'.take 9 = m.take 9) :
    checksum1A2D m' = checksum1A2D m := by
  rw [checksum1A2D, checksum1A2D, byteAt_eq_of_take_eq h (by omega), nibbleSum_eq_of_take_eq h (by omega)]

theorem checksumEA4C_eq_of_take_eq {m m' : List Byte} (h : m'.take 8 = m.take 8) :
    checksumEA4C m' = checksumEA4C m := by
  simp only [checksumEA4C, checkByteEA4C, nibbleSum_eq_of_take_eq h (by omega : 6 ≤ 8),
    byteAt_eq_of_take_eq h (by omega : 6 < 8), byteAt_eq_of_take_eq h (by omega : 7 < 8)]

theorem le_length_of_take_eq {m m' : List Byte} {n : Nat} (h : m'.take n = m.take n) (hn : n ≤ m.length) :
    n ≤ m'.length := by
  have hlen := congrArg List.length h
  simp only [List.length_take] at hlen
  omega

/-- Settles O41: type, checksum and reading are functions of the bytes of the type. -/
theorem bytesBeyondTheTypeAreNotRead : Obligations.BytesBeyondTheTypeAreNotRead := by
  refine fun cfg m m' hmin hmin' => ⟨fun ht h9 hmin9 hmin9' htake => ?_, fun ht h8 htake => ?_⟩
  · have h9' := le_length_of_take_eq htake h9
    have ht' : sensorType m' = type1A2D := (sensorType_eq_of_take_eq htake (by omega)).trans ht
    rw [validate_type1A2D ht (max_le hmin (by omega)) (max_le hmin9 h9),
      validate_type1A2D ht' (max_le hmin' (by omega)) (max_le hmin9' h9'), checksum1A2D_eq_of_take_eq htake,
      extractReading_eq_of_take_eq htake (by omega)]
  · have h8' := le_length_of_take_eq htake h8
    have ht' : sensorType m' = typeEA4C := (sensorType_eq_of_take_eq htake (by omega)).trans ht
    rw [validate_typeEA4C ht (max_le hmin h8), validate_typeEA4C ht' (max_le hmin' h8'),
      checksumEA4C_eq_of_take_eq htake, extractReading_eq_of_take_eq htake (by omega)]

/-! ### One bit flipped -/

theorem length_flipBit (m : List Byte) (i k : Nat) : (flipBit m i k).length = m.length := List.length_set

theorem byteAt_flipBit_same {m : List Byte} {i : Nat} (hi : i < m.length) (k : Nat) :
    byteAt (flipBit m i k) i = byteAt m i ^^^ (1#8 <<< k) := by
  rw [byteAt, flipBit, List.getD_eq_getElem _ _ (by simpa using hi), List.getElem_set_self]

theorem byteAt_flipBit_other (m : List Byte) {i j : Nat} (h : i ≠ j) (k : Nat) :
    byteAt (flipBit m i k) j = byteAt m j := by
  simp [byteAt, flipBit, List.getD_eq_getElem?_getD, List.getElem?_set_ne h]

theorem toNat_flip (b : Byte) {k : Nat} (hk : k < 8) : (b ^^^ (1#8 <<< k)).toNat = b.toNat ^^^ 2 ^ k := by
  have hpow : 2 ^ k < 256 := Nat.pow_lt_pow_right (n := 8) (by decide) hk
  simp [Nat.shiftLeft_eq, hpow]

theorem xor_two_pow_ne (n k : Nat) : n ^^^ 2 ^ k ≠ n := by
  intro h
  have hzero : 2 ^ k = 0 := Nat.xor_right_injective (h.trans (Nat.xor_zero n).symm)
  exact (Nat.two_pow_pos k).ne' hzero

/-- A flip changes one nibble of the byte and leaves the other, so the byte adds another number to the sum. -/
theorem nibbles_flip_ne (b : Byte) {k : Nat} (hk : k < 8) :
    highNibble (b ^^^ (1#8 <<< k)) + lowNibble (b ^^^ (1#8 <<< k)) ≠ highNibble b + lowNibble b := by
  have hhigh : (b.toNat ^^^ 2 ^ k) / 2 ^ 4 = b.toNat / 2 ^ 4 ^^^ 2 ^ k / 2 ^ 4 := Nat.xor_div_two_pow
  have hlow : (b.toNat ^^^ 2 ^ k) % 2 ^ 4 = b.toNat % 2 ^ 4 ^^^ 2 ^ k % 2 ^ 4 := Nat.xor_mod_two_pow
  rw [nibbles_eq, nibbles_eq, toNat_flip b hk]
  rcases lt_or_ge k 4 with h4 | h4
  · have hlt : 2 ^ k < 2 ^ 4 := Nat.pow_lt_pow_right (by decide) h4
    rw [Nat.div_eq_of_lt hlt, Nat.xor_zero] at hhigh
    rw [Nat.mod_eq_of_lt hlt] at hlow
    have hne := xor_two_pow_ne (b.toNat % 2 ^ 4) k
    omega
  · have hdvd : 2 ^ 4 ∣ 2 ^ k := pow_dvd_pow 2 h4
    rw [Nat.pow_div h4 (by decide)] at hhigh
    rw [Nat.mod_eq_zero_of_dvd hdvd, Nat.xor_zero] at hlow
    have hne := xor_two_pow_ne (b.toNat / 2 ^ 4) (k - 4)
    omega

/-- A flip inside the range changes the sum. -/
theorem nibbleSum_flipBit_ne {m : List Byte} {i k hi : Nat} (hi' : i < hi) (hlen : hi ≤ m.length) (hk : k < 8) :
    nibbleSum (flipBit m i k) 0 hi ≠ nibbleSum m 0 hi := by
  have hmem : i ∈ Finset.Ico 0 hi := Finset.mem_Ico.2 ⟨Nat.zero_le i, hi'⟩
  rw [nibbleSum_eq_sum_Ico (Nat.zero_le hi) (by rwa [length_flipBit]), nibbleSum_eq_sum_Ico (Nat.zero_le hi) hlen,
    ← Finset.add_sum_erase _ _ hmem, ← Finset.add_sum_erase _ _ hmem, byteAt_flipBit_same (by omega) k,
    ← nibbles_eq, ← nibbles_eq]
  have hrest : ∑ j ∈ (Finset.Ico 0 hi).erase i,
        ((byteAt (flipBit m i k) j).toNat / 16 + (byteAt (flipBit m i k) j).toNat % 16) =
      ∑ j ∈ (Finset.Ico 0 hi).erase i, ((byteAt m j).toNat / 16 + (byteAt m j).toNat % 16) :=
    Finset.sum_congr rfl fun j hj => by rw [byteAt_flipBit_other m (Finset.ne_of_mem_erase hj).symm k]
  rw [hrest]
  exact fun h => nibbles_flip_ne (byteAt m i) hk (Nat.add_right_cancel h)

/-- A flip after the range leaves the sum. -/
theorem nibbleSum_flipBit_after (m : List Byte) {i hi : Nat} (h : hi ≤ i) (k : Nat) :
    nibbleSum (flipBit m i k) 0 hi = nibbleSum m 0 hi := by
  rw [nibbleSum, nibbleSum, flipBit, List.take_set_of_le h]

/-- A flip of a type byte of `0x1A2D` gives no type the validator knows. -/
theorem sensorType_flipBit {m : List Byte} {i k : Nat} (ht : sensorType m = type1A2D) (hi : i < 2)
    (hlen : 2 ≤ m.length) (hk : k < 8) :
    sensorType (flipBit m i k) ≠ type1A2D ∧ sensorType (flipBit m i k) ≠ typeEA4C := by
  have htype : (byteAt m 0).toNat * 256 + (byteAt m 1).toNat = 0x1A2D := (sensorType_eq_iff m _).1 ht
  have hlt1 := (byteAt m 1).isLt
  have hflip := toNat_flip (byteAt m i) hk
  have hne := xor_two_pow_ne (byteAt m i).toNat k
  have hsame := byteAt_flipBit_same (m := m) (i := i) (by omega) k
  have hlt1' := (byteAt (flipBit m i k) 1).isLt
  rw [Ne, Ne, sensorType_eq_iff, sensorType_eq_iff]
  have h1A2D : type1A2D.toNat = 0x1A2D := rfl
  have hEA4C : typeEA4C.toNat = 0xEA4C := rfl
  rw [h1A2D, hEA4C]
  obtain rfl | rfl : i = 0 ∨ i = 1 := by omega
  · have hother := byteAt_flipBit_other m (show 0 ≠ 1 by decide) k
    rw [← hsame] at hflip
    rw [hother] at hlt1' ⊢
    omega
  · have hother := byteAt_flipBit_other m (show 1 ≠ 0 by decide) k
    rw [← hsame] at hflip
    rw [hother]
    omega

theorem nibbleSum_bounds_of_type1A2D {m : List Byte} (ht : sensorType m = type1A2D) (hlen : 8 ≤ m.length) :
    26 ≤ nibbleSum m 0 8 ∧ nibbleSum m 0 8 ≤ 240 := by
  have htype : (byteAt m 0).toNat * 256 + (byteAt m 1).toNat = 0x1A2D := (sensorType_eq_iff m _).1 ht
  have hlt1 := (byteAt m 1).isLt
  exact nibbleSum_type1A2D_bounds (by omega) (by omega) hlen

/-- A message of type `0x1A2D` and a flip of it after the type cannot both have a matching checksum. -/
theorem checksum1A2D_flipBit {m : List Byte} {i k : Nat} (ht : sensorType m = type1A2D)
    (ht' : sensorType (flipBit m i k) = type1A2D) (hi : i < 9) (hlen : 9 ≤ m.length) (hk : k < 8)
    (hsum : checksum1A2D m = true) : checksum1A2D (flipBit m i k) ≠ true := by
  obtain ⟨hlow, hhigh⟩ := nibbleSum_bounds_of_type1A2D ht (by omega)
  obtain ⟨hlow', hhigh'⟩ := nibbleSum_bounds_of_type1A2D ht' (by rw [length_flipBit]; omega)
  rw [checksum1A2D_iff (by omega)] at hsum
  rw [Ne, checksum1A2D_iff (by omega)]
  rcases lt_or_ge i 8 with h8 | h8
  · have hne := nibbleSum_flipBit_ne h8 (by omega : 8 ≤ m.length) hk
    rw [byteAt_flipBit_other m h8.ne k]
    omega
  · obtain rfl : i = 8 := by omega
    have hne := xor_two_pow_ne (byteAt m 8).toNat k
    rw [nibbleSum_flipBit_after m le_rfl, byteAt_flipBit_same (by omega), toNat_flip _ hk, ← hsum]
    exact hne

/-- Settles O40: a flip of the type gives an unknown one, any other flip leaves the type and breaks the checksum. -/
theorem singleBitFlipsAreRejected : Obligations.SingleBitFlipsAreRejected := by
  refine ⟨fun cfg m r i k h htype hi hk => ?_, _, rfl, rfl⟩
  obtain ⟨rfl, -, ⟨ht, hlen, hsum⟩ | ⟨ht, -⟩⟩ := validate_accepted h
  · have h9 : 9 ≤ m.length := (le_max_right _ _).trans hlen
    rcases lt_or_ge i 2 with h2 | h2
    · obtain ⟨h1A2D, hEA4C⟩ := sensorType_flipBit ht h2 (by omega) hk
      exact reading?_unknownType cfg h1A2D hEA4C
    · have ht' : sensorType (flipBit m i k) = type1A2D := by
        rw [← ht, sensorType, sensorType, byteAt_flipBit_other m (by omega), byteAt_flipBit_other m (by omega)]
      refine Option.eq_none_iff_forall_ne_some.2 fun r' hr' => ?_
      obtain ⟨-, -, ⟨-, -, hsum'⟩ | ⟨htE, -⟩⟩ := validate_accepted ((Verdict.reading?_eq_some_iff _ r').1 hr')
      · exact checksum1A2D_flipBit ht ht' hi h9 hk hsum hsum'
      · exact absurd (ht'.symm.trans htE) (by decide)
  · exact absurd (htype.symm.trans ht) (by decide)

end Sys2Proof.Machine
end

section
/-! A window from its opening to its close (41_window.md R124 to R128), whatever runs between its POLLs
(00_scope.md R10). -/

namespace Sys2Proof.Machine

theorem Instr.name_eq_reset_iff (i : Instr) : i.name = .reset ↔ i = .reset := by
  cases i <;> simp [Instr.name]

theorem Instr.exists_of_name_eq_poll {i : Instr} (h : i.name = .poll) : ∃ now rssi, i = .poll now rssi := by
  cases i with
  | poll now rssi => exact ⟨now, rssi, rfl⟩
  | nop | edge _ | drain | hbeat _ | classify _ | idlechk _ | validate | step _ | reset => cases h

/-! ### Operations other than POLL and RESET -/

/-- The registers of the window are the same in both states. -/
structure SameWindow (s t : State) : Prop where
  winState : t.winState = s.winState
  pollCount : t.pollCount = s.pollCount
  trigRssi : t.trigRssi = s.trigRssi
  openUs : t.openUs = s.openUs
  trigOut : t.trigOut = s.trigOut

theorem SameWindow.trans {s t u : State} (h : SameWindow s t) (h' : SameWindow t u) : SameWindow s u where
  winState := h'.winState.trans h.winState
  pollCount := h'.pollCount.trans h.pollCount
  trigRssi := h'.trigRssi.trans h.trigRssi
  openUs := h'.openUs.trans h.openUs
  trigOut := h'.trigOut.trans h.trigOut

/-- No operation but POLL and RESET writes a register of the window (41_window.md R128). -/
theorem exec_sameWindow {i : Instr} {s t : State} (hp : i.name ≠ .poll) (hr : i.name ≠ .reset)
    (h : exec i s = .next t) : SameWindow s t := by
  cases i with
  | poll now rssi => exact absurd rfl hp
  | reset => exact absurd rfl hr
  | step now =>
    rcases exec_step_inversion h with ⟨-, rfl⟩ | ⟨-, -, rfl⟩ | ⟨bytes, -, -, -, rfl⟩
    · exact ⟨rfl, rfl, rfl, rfl, rfl⟩
    · exact ⟨rfl, rfl, rfl, rfl, rfl⟩
    · rw [takeMessage_eq]; exact ⟨rfl, rfl, rfl, rfl, rfl⟩
  | nop | edge _ | drain | hbeat _ | classify _ | idlechk _ | validate => cases h; exact ⟨rfl, rfl, rfl, rfl, rfl⟩

/-- A POLL in a window completes, and closes it exactly when the count reaches `CAPTURE_POLLS`. -/
theorem exec_poll_closes_iff (now : Word) (rssi : Byte) {s : State} (hw : s.winState = .capturing) :
    ∃ t, exec (.poll now rssi) s = .next t ∧
      (t.winState = .idle ↔ countUp s.cfg.pollCntBits s.pollCount = s.cfg.capturePolls) := by
  by_cases hn : countUp s.cfg.pollCntBits s.pollCount = s.cfg.capturePolls
  · exact ⟨_, exec_poll_closes now rssi hw hn, iff_of_true rfl hn⟩
  · exact ⟨_, exec_poll_counts now rssi hw hn, by simp [hw, hn]⟩

/-- Settles O24: the window's registers are POLL's and RESET's, and POLL compares its count. -/
theorem onlyThePollCountClosesAWindow : Obligations.OnlyThePollCountClosesAWindow := by
  refine ⟨fun i s t hp hr h => ?_, fun now rssi s => exec_poll_closes_iff now rssi⟩
  obtain ⟨hstate, hcount, hrssi, hopen, hout⟩ := exec_sameWindow hp hr h
  exact ⟨hstate, hcount, hrssi, hopen, hout⟩

/-! ### What a run inside a window adds to the output -/

/-- From `s` to `t` the configuration and the opening poll's records stay, RSSI is not read, and the pins written and
the `WindowClosed` events emitted are these. -/
structure WindowTrace (pins : List Call) (closes : List Event) (s t : State) : Prop where
  cfg : t.cfg = s.cfg
  trigRssi : t.trigRssi = s.trigRssi
  openUs : t.openUs = s.openUs
  output : ∃ calls events, t.calls = s.calls ++ calls ∧ t.events = s.events ++ events ∧ Call.readRssi ∉ calls ∧
    calls.filter Call.isWritePin = pins ∧ events.filter Event.isWindowClosed = closes

theorem WindowTrace.trans {pins pins' : List Call} {closes closes' : List Event} {s t u : State}
    (h : WindowTrace pins closes s t) (h' : WindowTrace pins' closes' t u) :
    WindowTrace (pins ++ pins') (closes ++ closes') s u := by
  obtain ⟨calls, events, hcalls, hevents, hrssi, rfl, rfl⟩ := h.output
  obtain ⟨calls', events', hcalls', hevents', hrssi', rfl, rfl⟩ := h'.output
  refine ⟨h'.cfg.trans h.cfg, h'.trigRssi.trans h.trigRssi, h'.openUs.trans h.openUs, calls ++ calls',
    events ++ events', ?_, ?_, ?_, List.filter_append .., List.filter_append ..⟩
  · rw [hcalls', hcalls, List.append_assoc]
  · rw [hevents', hevents, List.append_assoc]
  · simp [hrssi, hrssi']

theorem WindowTrace.refl (s : State) : WindowTrace [] [] s s :=
  ⟨rfl, rfl, rfl, [], [], (List.append_nil _).symm, (List.append_nil _).symm, List.not_mem_nil, rfl, rfl⟩

theorem filter_isWindowClosed_readings (v : Verdict) :
    (v.reading?.map Event.reading).toList.filter Event.isWindowClosed = [] := by
  cases v <;> rfl

/-- An operation other than POLL and RESET writes no pin, reads no RSSI and closes no window. -/
theorem exec_windowTrace {i : Instr} {s t : State} (hp : i.name ≠ .poll) (hr : i.name ≠ .reset)
    (h : exec i s = .next t) : WindowTrace [] [] s t := by
  have hsame := exec_sameWindow hp hr h
  refine ⟨exec_cfg h, hsame.trigRssi, hsame.openUs, ?_⟩
  cases i with
  | poll now rssi => exact absurd rfl hp
  | reset => exact absurd rfl hr
  | drain =>
    cases h
    exact ⟨[.enterCriticalSection, .exitCriticalSection], [], by simp, by simp, by simp, rfl, rfl⟩
  | hbeat now => cases h; exact ⟨[], [_], by simp, rfl, by simp, rfl, rfl⟩
  | step now =>
    rcases exec_step_inversion h with ⟨-, rfl⟩ | ⟨-, -, rfl⟩ | ⟨bytes, -, -, -, rfl⟩
    · exact ⟨[.enterCriticalSection, .exitCriticalSection], [], by simp [idleEffect_eq], by simp [idleEffect_eq],
        by simp, rfl, rfl⟩
    · exact ⟨[.enterCriticalSection, .exitCriticalSection, .feed s.slotWidth], [], by simp [forwardSample_eq],
        by simp [forwardSample_eq], by simp, rfl, rfl⟩
    · rw [takeMessage_eq]
      exact ⟨[.enterCriticalSection, .exitCriticalSection, .feed s.slotWidth, .getData, .decoderReset], _,
        by simp [forwardSample_eq], rfl, by simp, rfl, filter_isWindowClosed_readings _⟩
  | nop | edge _ | classify _ | idlechk _ | validate => cases h; exact (WindowTrace.refl s).output

/-- Inside a window only RESET runs ProducerClear (40_producer.md R106). -/
theorem keepsProducer_of_window {i : Instr} {s : State} (hr : i ≠ .reset)
    (hpoll : i.name = .poll → s.winState = .capturing) : keepsProducer i s = true := by
  cases i with
  | poll now rssi => simp [keepsProducer, clearsProducer, hpoll rfl]
  | reset => exact absurd rfl hr
  | nop | edge _ | drain | hbeat _ | classify _ | idlechk _ | validate | step _ => rfl

theorem execAll_withoutPolls {ops : List Instr} {s t : State} (hr : Instr.reset ∉ ops) (hp : pollsIn ops = 0)
    (h : execAll ops s = .next t) :
    WindowTrace [] [] s t ∧ SameWindow s t ∧ everyIn keepsProducer ops s = true := by
  induction ops generalizing s with
  | nil => cases h; exact ⟨.refl _, ⟨rfl, rfl, rfl, rfl, rfl⟩, rfl⟩
  | cons i is ih =>
    obtain ⟨u, hu, ht⟩ := execAll_cons_inversion h
    obtain ⟨hi, his⟩ := List.ne_and_not_mem_of_not_mem_cons hr
    rw [pollsIn_cons] at hp
    have hname : i.name ≠ .poll := fun e => by simp [e] at hp
    have hname' := mt (Instr.name_eq_reset_iff i).1 hi.symm
    obtain ⟨htrace, hsame, hkeep⟩ := ih his (by omega) ht
    refine ⟨(exec_windowTrace hname hname' hu).trans htrace, (exec_sameWindow hname hname' hu).trans hsame, ?_⟩
    rw [everyIn_cons _ is hu, hkeep, keepsProducer_of_window hi.symm fun e => absurd e hname]
    rfl

/-! ### Before the last POLL -/

/-- From `s` to `t` the window stays open and counts `polls` POLLs. -/
structure StaysOpen (polls : Nat) (s t : State) : Prop extends WindowTrace [] [] s t where
  winState : t.winState = .capturing
  trigOut : t.trigOut = true
  pollCount : t.pollCount = s.pollCount + polls

theorem StaysOpen.trans {m n : Nat} {s t u : State} (h : StaysOpen m s t) (h' : StaysOpen n t u) :
    StaysOpen (m + n) s u where
  toWindowTrace := h.toWindowTrace.trans h'.toWindowTrace
  winState := h'.winState
  trigOut := h'.trigOut
  pollCount := by rw [h'.pollCount, h.pollCount, Nat.add_assoc]

/-- In a legal configuration the count of an open window does not wrap (10_state.md R27). -/
theorem countUp_of_legal {s : State} (hc : s.cfg.legal = true) (hle : s.pollCount + 1 ≤ s.cfg.capturePolls) :
    countUp s.cfg.pollCntBits s.pollCount = s.pollCount + 1 :=
  Nat.mod_eq_of_lt (hle.trans_lt (Config.capturePolls_of_legal hc).2)

/-- One operation in a window, if it is not its last POLL. -/
theorem exec_staysOpen {i : Instr} {s t : State} (hc : s.cfg.legal = true) (hw : s.winState = .capturing)
    (hout : s.trigOut = true) (hr : i ≠ .reset) (hlt : i.name = .poll → s.pollCount + 1 < s.cfg.capturePolls)
    (h : exec i s = .next t) : StaysOpen (if i.name = .poll then 1 else 0) s t := by
  by_cases hp : i.name = .poll
  · obtain ⟨now, rssi, rfl⟩ := Instr.exists_of_name_eq_poll hp
    have hlt := hlt rfl
    have hcount := countUp_of_legal hc hlt.le
    cases (exec_poll_counts now rssi hw (hcount ▸ hlt.ne)).symm.trans h
    exact ⟨⟨rfl, rfl, rfl, (WindowTrace.refl s).output⟩, hw, hout, hcount⟩
  · have hr' := mt (Instr.name_eq_reset_iff i).1 hr
    have hsame := exec_sameWindow hp hr' h
    rw [if_neg hp]
    exact ⟨exec_windowTrace hp hr' h, hsame.winState.trans hw, hsame.trigOut.trans hout, hsame.pollCount⟩

/-- A run with too few POLLs to close the window. -/
theorem execAll_staysOpen {ops : List Instr} {s t : State} (hc : s.cfg.legal = true) (hw : s.winState = .capturing)
    (hout : s.trigOut = true) (hr : Instr.reset ∉ ops) (hlt : s.pollCount + pollsIn ops < s.cfg.capturePolls)
    (h : execAll ops s = .next t) : StaysOpen (pollsIn ops) s t ∧ everyIn keepsProducer ops s = true := by
  induction ops generalizing s with
  | nil => cases h; exact ⟨⟨.refl _, hw, hout, rfl⟩, rfl⟩
  | cons i is ih =>
    obtain ⟨u, hu, ht⟩ := execAll_cons_inversion h
    obtain ⟨hi, his⟩ := List.ne_and_not_mem_of_not_mem_cons hr
    rw [pollsIn_cons] at hlt ⊢
    have hopen := exec_staysOpen hc hw hout hi.symm (fun e => by rw [if_pos e] at hlt; omega) hu
    have hcount := hopen.pollCount
    obtain ⟨hrest, hkeep⟩ := ih (hopen.cfg ▸ hc) hopen.winState hopen.trigOut his (by rw [hopen.cfg]; omega) ht
    refine ⟨Nat.add_comm _ _ ▸ hopen.trans hrest, ?_⟩
    rw [everyIn_cons _ is hu, hkeep, keepsProducer_of_window hi.symm fun _ => hw]
    rfl

/-! ### The last POLL -/

/-- From `s` to `t` the window closes: one pin write, one `WindowClosed`. -/
structure ClosesWindow (s t : State) : Prop where
  trace : ∃ elapsed, WindowTrace [.writePin (.trig s.cfg.trigPin) false] [.windowClosed elapsed s.trigRssi] s t
  winState : t.winState = .idle
  trigOut : t.trigOut = false
  pollCount : t.pollCount = 0

theorem closesWindow_closeWindow (now : Word) (s : State) : ClosesWindow s (closeWindow now s) where
  trace := ⟨_, rfl, rfl, rfl, [_], [_], rfl, rfl, by simp, rfl, rfl⟩
  winState := rfl
  trigOut := rfl
  pollCount := rfl

/-- What came before with the window open. -/
theorem ClosesWindow.after_staysOpen {n : Nat} {s t u : State} (h : StaysOpen n s t) (h' : ClosesWindow t u) :
    ClosesWindow s u := by
  obtain ⟨elapsed, htrace⟩ := h'.trace
  rw [h.cfg, h.trigRssi] at htrace
  exact ⟨⟨elapsed, h.toWindowTrace.trans htrace⟩, h'.winState, h'.trigOut, h'.pollCount⟩

/-- What comes after without a POLL. -/
theorem ClosesWindow.before_sameWindow {s t u : State} (h : ClosesWindow s t) (htrace' : WindowTrace [] [] t u)
    (hsame : SameWindow t u) : ClosesWindow s u := by
  obtain ⟨elapsed, htrace⟩ := h.trace
  exact ⟨⟨elapsed, htrace.trans htrace'⟩, hsame.winState.trans h.winState, hsame.trigOut.trans h.trigOut,
    hsame.pollCount.trans h.pollCount⟩

/-- A run with exactly the POLLs the window still takes. -/
theorem execAll_closesWindow {ops : List Instr} {s t : State} (hc : s.cfg.legal = true)
    (hw : s.winState = .capturing) (hout : s.trigOut = true) (hr : Instr.reset ∉ ops)
    (hlt : s.pollCount < s.cfg.capturePolls) (heq : s.pollCount + pollsIn ops = s.cfg.capturePolls)
    (h : execAll ops s = .next t) : ClosesWindow s t ∧ everyIn keepsProducer ops s = true := by
  induction ops generalizing s with
  | nil => rw [pollsIn_nil] at heq; omega
  | cons i is ih =>
    obtain ⟨u, hu, ht⟩ := execAll_cons_inversion h
    obtain ⟨hi, his⟩ := List.ne_and_not_mem_of_not_mem_cons hr
    rw [pollsIn_cons] at heq
    rw [everyIn_cons _ is hu, keepsProducer_of_window hi.symm fun _ => hw, Bool.true_and]
    by_cases hlast : i.name = .poll ∧ s.pollCount + 1 = s.cfg.capturePolls
    · obtain ⟨hp, hcount⟩ := hlast
      rw [if_pos hp] at heq
      obtain ⟨now, rssi, rfl⟩ := Instr.exists_of_name_eq_poll hp
      cases (exec_poll_closes now rssi hw ((countUp_of_legal hc hcount.le).trans hcount)).symm.trans hu
      obtain ⟨htrace, hsame, hkeep⟩ := execAll_withoutPolls his (by omega) ht
      exact ⟨(closesWindow_closeWindow now s).before_sameWindow htrace hsame, hkeep⟩
    · have hopen := exec_staysOpen hc hw hout hi.symm (fun e => by have := mt (And.intro e) hlast; omega) hu
      have hcount := hopen.pollCount
      have hult : u.pollCount < s.cfg.capturePolls := by
        split at hcount
        next hp => have := mt (And.intro hp) hlast; omega
        next => omega
      obtain ⟨hcloses, hkeep⟩ := ih (hopen.cfg ▸ hc) hopen.winState hopen.trigOut his (hopen.cfg ▸ hult)
        (by rw [hopen.cfg]; omega) ht
      exact ⟨.after_staysOpen hopen hcloses, hkeep⟩

theorem execAll_polls_complete (polls : List (Word × Byte)) (s : State) :
    ∃ t, execAll (polls.map fun p => .poll p.1 p.2) s = .next t := by
  induction polls generalizing s with
  | nil => exact ⟨s, rfl⟩
  | cons p ps ih =>
    obtain ⟨u, hu⟩ := exec_poll_completes p.1 p.2 s
    obtain ⟨t, ht⟩ := ih u
    exact ⟨t, (execAll_cons _ hu).trans ht⟩

/-- Settles O23: up to the last POLL each operation leaves the window open, the last POLL closes it, and what follows
without a POLL leaves it closed. -/
theorem windowClosesAtTheNthPoll : Obligations.WindowClosesAtTheNthPoll := by
  refine ⟨fun s t ops hc hw hout hcount hr hle h => ?_, fun s polls => execAll_polls_complete polls s⟩
  rcases hle.lt_or_eq with hlt | heq
  · obtain ⟨hopen, hkeep⟩ := execAll_staysOpen hc hw hout hr (by omega) h
    obtain ⟨calls, events, hcalls, hevents, hrssi, hpins, hcloses⟩ := hopen.output
    have hpolls : t.pollCount = pollsIn ops := by rw [hopen.pollCount, hcount, Nat.zero_add]
    exact ⟨hopen.trigRssi, hopen.openUs, hkeep, calls, events, hcalls, hevents, hrssi,
      fun _ => ⟨hopen.winState, hopen.trigOut, hpolls, hcloses, hpins⟩, fun heq => absurd heq hlt.ne⟩
  · have hone := (Config.capturePolls_of_legal hc).1
    obtain ⟨hclosed, hkeep⟩ := execAll_closesWindow hc hw hout hr (by omega) (by omega) h
    obtain ⟨elapsed, htrace⟩ := hclosed.trace
    obtain ⟨calls, events, hcalls, hevents, hrssi, hpins, hcloses⟩ := htrace.output
    exact ⟨htrace.trigRssi, htrace.openUs, hkeep, calls, events, hcalls, hevents, hrssi,
      fun hlt => absurd heq hlt.ne, fun _ => ⟨hclosed.winState, hclosed.trigOut, hclosed.pollCount, hpins, elapsed,
        hcloses⟩⟩

end Sys2Proof.Machine
end

section
/-! Runs in which every width is Invalid (42_classifier.md R147), under the premise on the decoder (44_pipeline.md
R197). -/

namespace Sys2Proof.Machine

/-! ### Widths fed since the last reset of the decoder -/

/-- Calls that do not reset the decoder add the widths they feed. -/
theorem fedSinceReset_append (cs : List Call) {ds : List Call} (h : Call.decoderReset ∉ ds) :
    fedSinceReset (cs ++ ds) = fedSinceReset cs ++ fedSinceReset ds := by
  induction cs with
  | nil => rfl
  | cons c cs ih =>
    cases c with
    | feed w =>
      have hmem : Call.decoderReset ∈ cs ++ ds ↔ Call.decoderReset ∈ cs := by simp [h]
      simp only [List.cons_append, fedSinceReset, hmem, ih]
      split <;> rfl
    | readRssi | writePin _ _ | enterCriticalSection | exitCriticalSection | getData | decoderReset
    | setReceiveMode | setFrequency _ | setPinMode _ _ | attachEdgeInterrupt _ _ => exact ih

theorem onlyInvalidFed_append {s t : State} {ds : List Call} (hs : s.onlyInvalidFed) (hcfg : t.cfg = s.cfg)
    (hcalls : t.calls = s.calls ++ ds) (hreset : Call.decoderReset ∉ ds)
    (hds : ∀ w ∈ fedSinceReset ds, classifyTag s.cfg w = .invalid) : t.onlyInvalidFed := by
  intro w hw
  rw [hcalls, fedSinceReset_append _ hreset, List.mem_append] at hw
  rw [hcfg]
  exact hw.elim (hs w) (hds w)

/-! ### No valid pulse in the state, none in the run -/

/-- The line is not active, and neither the slot nor what the decoder was fed since its last reset holds a valid
width. -/
structure NoValidPulse (s : State) : Prop where
  inactive : s.active = false
  fed : s.onlyInvalidFed
  slot : s.slotWidth ≠ 0 → classifyTag s.cfg s.slotWidth = .invalid

/-- The state `t` has no reading that `s` has not. -/
def NoNewReading (s t : State) : Prop := ∀ r, Event.reading r ∈ t.events → Event.reading r ∈ s.events

theorem exec_poll_noValidPulse {now : Word} {rssi : Byte} {s t : State} (hs : NoValidPulse s)
    (h : exec (.poll now rssi) s = .next t) : NoValidPulse t ∧ NoNewReading s t := by
  obtain ⟨hactive, hfed, hslot⟩ := hs
  rcases exec_poll_inversion h with ⟨-, -, rfl⟩ | ⟨-, -, rfl⟩ | ⟨-, -, rfl⟩ | ⟨-, -, rfl⟩
  · exact ⟨⟨hactive, onlyInvalidFed_append hfed rfl rfl (by simp) (by simp [fedSinceReset]), hslot⟩,
      fun r hr => by simpa [closeWindow_eq] using hr⟩
  · exact ⟨⟨hactive, hfed, hslot⟩, fun _ => id⟩
  · have hcalls : (openWindow now rssi (s.call [.readRssi])).calls = s.calls ++
        [.readRssi, .writePin (.trig s.cfg.trigPin) true, .enterCriticalSection, .exitCriticalSection] := by
      simp [openWindow_eq]
    exact ⟨⟨hactive, onlyInvalidFed_append hfed rfl hcalls (by simp) (by simp [fedSinceReset]),
      fun hw => absurd rfl hw⟩, fun _ => id⟩
  · exact ⟨⟨hactive, onlyInvalidFed_append hfed rfl rfl (by simp) (by simp [fedSinceReset]), hslot⟩, fun _ => id⟩

/-- A STEP feeds the Invalid width, and by the premise no message is completed. -/
theorem exec_step_noValidPulse (now : Word) {s : State} (hs : NoValidPulse s) (hdec : DecoderNeedsValidPulses s) :
    ∃ t, exec (.step now) s = .next t ∧ NoValidPulse t ∧ NoNewReading s t := by
  obtain ⟨hactive, hfed, hslot⟩ := hs
  by_cases hw : s.slotWidth = 0
  · refine ⟨_, exec_step_empty now hw, ⟨?_, ?_, fun hw => absurd rfl hw⟩, fun _ => id⟩
    · simp [idleEffect, hactive]
    · exact onlyInvalidFed_append hfed rfl (List.append_assoc _ _ _) (by simp) (by simp [fedSinceReset])
  · have htag := hslot hw
    have hcalls : (forwardSample ⟨s.slotWidth, s.slotTime⟩ s).calls =
        s.calls ++ [.enterCriticalSection, .exitCriticalSection, .feed s.slotWidth] := by simp [forwardSample_eq]
    refine ⟨_, exec_step_waits now hw (hdec hw hfed htag), ⟨?_, ?_, fun hw => absurd rfl hw⟩, fun _ => id⟩
    · simp [forwardSample_eq, htag]
    · exact onlyInvalidFed_append hfed rfl hcalls (by simp) (by simp [fedSinceReset, htag])

/-- One operation whose own widths are Invalid. -/
theorem exec_noValidPulse {i : Instr} {s : State} (hs : NoValidPulse s)
    (hstored : ∀ p ∈ sampleStored i s, p.widthUs = 0 ∨ classifyTag s.cfg p.widthUs = .invalid)
    (hclassified : ∀ w, i = .classify w → classifyTag s.cfg w.toNat = .invalid)
    (hdec : ∀ now, i = .step now → DecoderNeedsValidPulses s) :
    ∃ t, exec i s = .next t ∧ NoValidPulse t ∧ NoNewReading s t := by
  obtain ⟨hactive, hfed, hslot⟩ := hs
  cases i with
  | step now => exact exec_step_noValidPulse now ⟨hactive, hfed, hslot⟩ (hdec now rfl)
  | poll now rssi =>
    obtain ⟨t, ht⟩ := exec_poll_completes now rssi s
    exact ⟨t, ht, exec_poll_noValidPulse ⟨hactive, hfed, hslot⟩ ht⟩
  | edge now =>
    have hwidth := hstored _ (List.mem_singleton.2 rfl)
    exact ⟨_, exec_edge now s, ⟨hactive, hfed, hwidth.resolve_left⟩, fun _ => id⟩
  | drain =>
    refine ⟨_, exec_drain s, ⟨hactive, ?_, fun hw => absurd rfl hw⟩, fun _ => id⟩
    exact onlyInvalidFed_append hfed rfl (List.append_assoc _ _ _) (by simp) (by simp [fedSinceReset])
  | hbeat now => exact ⟨_, rfl, ⟨hactive, hfed, hslot⟩, fun r hr => by simpa using hr⟩
  | classify w =>
    refine ⟨_, rfl, ⟨?_, hfed, hslot⟩, fun _ => id⟩
    simp [classifyEffect, hclassified w rfl]
  | idlechk now =>
    refine ⟨_, rfl, ⟨?_, hfed, hslot⟩, fun _ => id⟩
    simp [idleEffect, hactive]
  | reset =>
    refine ⟨_, rfl, ⟨rfl, ?_, fun hw => absurd rfl hw⟩, by simp [NoNewReading]⟩
    simp [State.onlyInvalidFed, fedSinceReset]
  | nop | validate => exact ⟨_, rfl, ⟨hactive, hfed, hslot⟩, fun _ => id⟩

/-- The premise on a run is the premise on its first STEP and on the rest. -/
theorem decoderNeedsValidPulsesIn_cons {i : Instr} {is : List Instr} {s : State}
    (h : DecoderNeedsValidPulsesIn (i :: is) s) :
    (∀ now, i = .step now → DecoderNeedsValidPulses s) ∧
      ∀ t, exec i s = .next t → DecoderNeedsValidPulsesIn is t := by
  constructor
  · rintro now rfl
    exact h [] is now s rfl rfl
  · rintro t ht before after now u rfl hu
    exact h (i :: before) after now u rfl ((execAll_cons before ht).trans hu)

theorem execAll_noValidPulse {ops : List Instr} {s : State} (hs : NoValidPulse s)
    (hstored : ∀ p ∈ gather sampleStored ops s, p.widthUs = 0 ∨ classifyTag s.cfg p.widthUs = .invalid)
    (hclassified : ∀ w, Instr.classify w ∈ ops → classifyTag s.cfg w.toNat = .invalid)
    (hdec : DecoderNeedsValidPulsesIn ops s) :
    ∃ t, execAll ops s = .next t ∧ NoValidPulse t ∧ NoNewReading s t := by
  induction ops generalizing s with
  | nil => exact ⟨s, rfl, hs, fun _ => id⟩
  | cons i is ih =>
    obtain ⟨hdec0, hdecs⟩ := decoderNeedsValidPulsesIn_cons hdec
    have hstored0 : ∀ p ∈ sampleStored i s, p.widthUs = 0 ∨ classifyTag s.cfg p.widthUs = .invalid :=
      fun p hp => hstored p (List.mem_append_left _ hp)
    obtain ⟨u, hu, hsu, hread⟩ :=
      exec_noValidPulse hs hstored0 (fun w e => hclassified w (e ▸ List.mem_cons_self)) hdec0
    rw [gather_cons _ is hu, ← exec_cfg hu] at hstored
    rw [← exec_cfg hu] at hclassified
    obtain ⟨t, ht, hst, hreads⟩ := ih hsu (fun p hp => hstored p (List.mem_append_right _ hp))
      (fun w hw => hclassified w (List.mem_cons_of_mem i hw)) (hdecs u hu)
    exact ⟨t, (execAll_cons is hu).trans ht, hst, fun r hr => hread r (hreads r hr)⟩

/-- Settles O28: no operation brings a valid pulse into a state without one, and only a valid pulse lets the decoder
complete a message. -/
theorem invalidWidthsNeverGiveAReading : Obligations.InvalidWidthsNeverGiveAReading := by
  refine ⟨by decide, fun s ops hactive hfed hslot hstored hclassified hdec => ?_⟩
  obtain ⟨t, ht, hpulse, hread⟩ := execAll_noValidPulse ⟨hactive, hfed, hslot⟩ hstored hclassified hdec
  exact ⟨t, ht, hpulse.inactive, hread⟩

end Sys2Proof.Machine
end

section
/-! What each operation leaves unchanged and does not read: the contexts (60_exceptions.md R216), the message buffer
(20_memory.md R50), the events (10_state.md R37), the decoder's resets (44_pipeline.md R194) and the window (R195). -/

namespace Sys2Proof.Machine

/-! ### Contexts -/

/-- Of the operations only EDGE is the handler's (00_scope.md R10). -/
theorem Instr.exists_of_agent_isr {i : Instr} (h : i.agent = .isr) : ∃ now, i = .edge now := by
  cases i with
  | edge now => exact ⟨now, rfl⟩
  | nop | drain | poll _ _ | hbeat _ | classify _ | idlechk _ | validate | step _ | reset => cases h

theorem exec_main_lastEdgeUs {i : Instr} {s t : State} (hm : i.agent = .main) (h : exec i s = .next t) :
    t.lastEdgeUs = s.lastEdgeUs := by
  cases i with
  | edge _ | reset => cases hm
  | poll now rssi =>
    rcases exec_poll_inversion h with ⟨-, -, rfl⟩ | ⟨-, -, rfl⟩ | ⟨-, -, rfl⟩ | ⟨-, -, rfl⟩ <;> rfl
  | step now =>
    rcases exec_step_inversion h with ⟨-, rfl⟩ | ⟨-, -, rfl⟩ | ⟨bytes, -, -, -, rfl⟩
    · rfl
    · rfl
    · rw [takeMessage_eq]; rfl
  | nop | drain | hbeat _ | classify _ | idlechk _ | validate => cases h; rfl

/-- The cell the two contexts share is the same in both states (20_memory.md R58). -/
def SameCell (s t : State) : Prop :=
  t.slotWidth = s.slotWidth ∧ t.slotTime = s.slotTime ∧ t.edgeCount = s.edgeCount

/-- The calls from `s` to `t` hold a critical section. -/
def MakesCrit (s t : State) : Prop :=
  ∃ before after, t.calls = s.calls ++ before ++ [.enterCriticalSection, .exitCriticalSection] ++ after

/-- An operation of the main loop leaves the shared cell or makes a critical section. -/
theorem exec_main_cell {i : Instr} {s t : State} (hm : i.agent = .main) (h : exec i s = .next t) :
    SameCell s t ∨ MakesCrit s t := by
  cases i with
  | edge _ | reset => cases hm
  | drain => cases h; exact .inr ⟨[], [], by simp⟩
  | poll now rssi =>
    rcases exec_poll_inversion h with ⟨-, -, rfl⟩ | ⟨-, -, rfl⟩ | ⟨-, -, rfl⟩ | ⟨-, -, rfl⟩
    · exact .inl ⟨rfl, rfl, rfl⟩
    · exact .inl ⟨rfl, rfl, rfl⟩
    · exact .inr ⟨[.readRssi, .writePin (.trig s.cfg.trigPin) true], [], by simp [openWindow_eq]⟩
    · exact .inl ⟨rfl, rfl, rfl⟩
  | step now =>
    refine .inr ⟨[], ?_⟩
    rcases exec_step_inversion h with ⟨-, rfl⟩ | ⟨-, -, rfl⟩ | ⟨bytes, -, -, -, rfl⟩
    · exact ⟨[], by simp [idleEffect_eq]⟩
    · exact ⟨[.feed s.slotWidth], by simp [forwardSample_eq]⟩
    · exact ⟨[.feed s.slotWidth, .getData, .decoderReset], by simp [takeMessage_eq, forwardSample_eq]⟩
  | nop | hbeat _ | classify _ | idlechk _ | validate => cases h; exact .inl ⟨rfl, rfl, rfl⟩

/-- Settles O52: EDGE is the handler's only operation, and of the main loop's those that change the shared cell run
in a critical section. -/
theorem contextsKeepToTheirState : Obligations.ContextsKeepToTheirState := by
  refine fun i s t h => ⟨exec_cfg h, fun hisr => ?_, fun hm => exec_main_lastEdgeUs hm h, fun hm hchange => ?_⟩
  · obtain ⟨now, rfl⟩ := Instr.exists_of_agent_isr hisr
    cases (exec_edge now s).symm.trans h
    rfl
  · refine (exec_main_cell hm h).resolve_left ?_
    rintro ⟨hwidth, htime, hcount⟩
    exact hchange.elim (absurd hwidth) (Or.elim · (absurd htime) (absurd hcount))

/-! ### The message buffer -/

theorem exec_keeps_buffer {i : Instr} {s t : State} (hs : ∀ now, i ≠ .step now) (hr : i ≠ .reset)
    (h : exec i s = .next t) : t.msgLen = s.msgLen ∧ t.msg = s.msg := by
  cases i with
  | step now => exact absurd rfl (hs now)
  | reset => exact absurd rfl hr
  | poll now rssi =>
    rcases exec_poll_inversion h with ⟨-, -, rfl⟩ | ⟨-, -, rfl⟩ | ⟨-, -, rfl⟩ | ⟨-, -, rfl⟩ <;> exact ⟨rfl, rfl⟩
  | nop | edge _ | drain | hbeat _ | classify _ | idlechk _ | validate => cases h; exact ⟨rfl, rfl⟩

/-- Without a completed message STEP leaves the buffer. -/
theorem exec_step_keeps_buffer {now : Word} {s t : State} (hnone : s.slotWidth = 0 ∨ s.decoder.answer = none)
    (h : exec (.step now) s = .next t) : t.msgLen = s.msgLen ∧ t.msg = s.msg := by
  rcases exec_step_inversion h with ⟨-, rfl⟩ | ⟨-, -, rfl⟩ | ⟨bytes, hw, ha, -, -⟩
  · exact ⟨rfl, rfl⟩
  · exact ⟨rfl, rfl⟩
  · simp [hw, ha] at hnone

/-- With one, it fills the buffer with it. -/
theorem exec_step_fills {now : Word} {s t : State} {bytes : List Byte} (hw : s.slotWidth ≠ 0)
    (ha : s.decoder.answer = some bytes) (h : exec (.step now) s = .next t) :
    t.msg = Memory.writeBytes s.msg 0 bytes := by
  rcases exec_step_inversion h with ⟨hz, -⟩ | ⟨-, hn, -⟩ | ⟨bytes', -, ha', -, rfl⟩
  · exact absurd hz hw
  · cases hn.symm.trans ha
  · cases ha'.symm.trans ha
    rw [takeMessage_eq]
    rfl

/-- Settles O53: STEP with a message and RESET write the buffer, and nothing else does. -/
theorem onlyStepAndResetWriteTheBuffer : Obligations.OnlyStepAndResetWriteTheBuffer := by
  refine fun i s t h => ⟨fun hs hr => ?_, ?_, ?_, ?_⟩
  · obtain ⟨hlen, hmsg⟩ := exec_keeps_buffer hs hr h
    exact ⟨hlen, fun a => by rw [hmsg]⟩
  · rintro ⟨now, rfl⟩ hnone
    obtain ⟨hlen, hmsg⟩ := exec_step_keeps_buffer hnone h
    exact ⟨hlen, fun a => by rw [hmsg]⟩
  · rintro now bytes rfl hw ha a hle
    rw [exec_step_fills hw ha h]
    exact Memory.read_writeBytes_outside _ 0 a bytes (.inr (by omega))
  · rintro rfl
    cases h
    exact ⟨rfl, fun _ => rfl⟩

/-! ### Events -/

/-- The state with other events before. -/
def State.withEvents (s : State) (earlier : List Event) : State := { s with events := earlier }

/-- What an operation appends does not depend on the events before (10_state.md R37). -/
theorem exec_withEvents {i : Instr} {s t : State} (earlier : List Event) (hr : i ≠ .reset) (h : exec i s = .next t) :
    ∃ new, t.events = s.events ++ new ∧ exec i (s.withEvents earlier) = .next (t.withEvents (earlier ++ new)) := by
  cases i with
  | reset => exact absurd rfl hr
  | hbeat now => cases h; exact ⟨_, rfl, rfl⟩
  | poll now rssi =>
    rcases exec_poll_inversion h with ⟨hw, hn, rfl⟩ | ⟨hw, hn, rfl⟩ | ⟨hw, hr, rfl⟩ | ⟨hw, hr, rfl⟩
    · exact ⟨_, rfl, exec_poll_closes now rssi (s := s.withEvents earlier) hw hn⟩
    · exact ⟨[], by simp, by rw [List.append_nil]; exact exec_poll_counts now rssi (s := s.withEvents earlier) hw hn⟩
    · exact ⟨[], by simp [openWindow_eq],
        by rw [List.append_nil]; exact exec_poll_opens now (s := s.withEvents earlier) hw hr⟩
    · exact ⟨[], by simp, by rw [List.append_nil]; exact exec_poll_stays now (s := s.withEvents earlier) hw hr⟩
  | step now =>
    rcases exec_step_inversion h with ⟨hw, rfl⟩ | ⟨hw, ha, rfl⟩ | ⟨bytes, hw, ha, hl, rfl⟩
    · exact ⟨[], by simp [idleEffect_eq],
        by rw [List.append_nil]; exact exec_step_empty now (s := s.withEvents earlier) hw⟩
    · exact ⟨[], by simp [forwardSample_eq],
        by rw [List.append_nil]; exact exec_step_waits now (s := s.withEvents earlier) hw ha⟩
    · rw [exec_step_takes now (s := s.withEvents earlier) hw ha hl, takeMessage_eq, takeMessage_eq]
      exact ⟨_, rfl, rfl⟩
  | nop | edge _ | drain | classify _ | idlechk _ | validate =>
    cases h; exact ⟨[], (List.append_nil _).symm, by rw [List.append_nil]; rfl⟩

/-- Settles O54: what each operation appends is computed from other fields. -/
theorem eventsAreAppendOnly : Obligations.EventsAreAppendOnly :=
  fun _ _ _ earlier hr h => exec_withEvents earlier hr h

/-! ### Resets of the decoder -/

theorem Instr.exists_of_name_eq_step {i : Instr} (h : i.name = .step) : ∃ now, i = .step now := by
  cases i with
  | step now => exact ⟨now, rfl⟩
  | nop | edge _ | drain | poll _ _ | hbeat _ | classify _ | idlechk _ | validate | reset => cases h

/-- Only STEP and RESET of the block make a call that could be the decoder's reset. -/
theorem exec_noDecoderReset {i : Instr} {s t : State} (hs : i.name ≠ .step) (hr : i ≠ .reset)
    (h : exec i s = .next t) : ∃ made, t.calls = s.calls ++ made ∧ made.count .decoderReset = 0 := by
  cases i with
  | step now => exact absurd rfl hs
  | reset => exact absurd rfl hr
  | drain => cases h; exact ⟨[.enterCriticalSection, .exitCriticalSection], by simp, by decide⟩
  | poll now rssi =>
    rcases exec_poll_inversion h with ⟨-, -, rfl⟩ | ⟨-, -, rfl⟩ | ⟨-, -, rfl⟩ | ⟨-, -, rfl⟩
    · exact ⟨_, rfl, rfl⟩
    · exact ⟨[], by simp, rfl⟩
    · exact ⟨[.readRssi, .writePin (.trig s.cfg.trigPin) true, .enterCriticalSection, .exitCriticalSection],
        by simp [openWindow_eq], rfl⟩
    · exact ⟨_, rfl, rfl⟩
  | nop | edge _ | hbeat _ | classify _ | idlechk _ | validate => cases h; exact ⟨[], (List.append_nil _).symm, rfl⟩

theorem exec_step_decoderReset {now : Word} {s t : State} (h : exec (.step now) s = .next t) :
    ∃ made, t.calls = s.calls ++ made ∧
      made.count .decoderReset = if s.slotWidth ≠ 0 ∧ s.decoder.answer ≠ none then 1 else 0 := by
  rcases exec_step_inversion h with ⟨hw, rfl⟩ | ⟨hw, ha, rfl⟩ | ⟨bytes, hw, ha, -, rfl⟩
  · exact ⟨[.enterCriticalSection, .exitCriticalSection], by simp [idleEffect_eq], by simp [hw]⟩
  · exact ⟨[.enterCriticalSection, .exitCriticalSection, .feed s.slotWidth], by simp [forwardSample_eq],
      by simp [ha]⟩
  · exact ⟨[.enterCriticalSection, .exitCriticalSection, .feed s.slotWidth, .getData, .decoderReset],
      by simp [takeMessage_eq, forwardSample_eq], by simp [hw, ha]⟩

/-- Settles O55: of the calls that operations make, the decoder's reset is made by STEP, after a message. -/
theorem decoderIsResetAfterACompletedMessage : Obligations.DecoderIsResetAfterACompletedMessage := by
  intro i s t hr h
  by_cases hs : i.name = .step
  · obtain ⟨now, rfl⟩ : ∃ now, i = .step now := Instr.exists_of_name_eq_step hs
    obtain ⟨made, hcalls, hcount⟩ := exec_step_decoderReset h
    exact ⟨made, hcalls, by simpa [Instr.name] using hcount⟩
  · obtain ⟨made, hcalls, hcount⟩ := exec_noDecoderReset hs hr h
    exact ⟨made, hcalls, by rw [hcount, if_neg fun hc => hs hc.1]⟩

/-! ### The window and the pulse path -/

/-- The state with other window registers. -/
def State.withWindow (s : State) (w : WinState) (count : Nat) (rssi : Byte) (opened : Nat) (out : Bool) : State :=
  { s with winState := w, pollCount := count, trigRssi := rssi, openUs := opened, trigOut := out }

theorem exec_step_withWindow {now : Word} {s t : State} (w : WinState) (count : Nat) (rssi : Byte) (opened : Nat)
    (out : Bool) (h : exec (.step now) s = .next t) :
    exec (.step now) (s.withWindow w count rssi opened out) = .next (t.withWindow w count rssi opened out) := by
  rcases exec_step_inversion h with ⟨hw, rfl⟩ | ⟨hw, ha, rfl⟩ | ⟨bytes, hw, ha, hl, rfl⟩
  · exact exec_step_empty now (s := s.withWindow w count rssi opened out) hw
  · exact exec_step_waits now (s := s.withWindow w count rssi opened out) hw ha
  · rw [exec_step_takes now (s := s.withWindow w count rssi opened out) hw ha hl, takeMessage_eq, takeMessage_eq]
    rfl

/-- Settles O50: none of STEP's cases looks at the window or writes it. -/
theorem stepIgnoresTheWindow : Obligations.StepIgnoresTheWindow :=
  fun _ _ _ w count rssi opened out h => exec_step_withWindow w count rssi opened out h

end Sys2Proof.Machine
end
